-- ==== Sys2Proof/Word.lean ====
section
/-! DEFINITION. The plain data types of the HFC core: bytes, counts, weights and 256-entry tables
(spec/00_scope.md R8, R9, R10; spec/10_state.md R35, R38, R45). Only types and constant tables
stand here; every computation on them is in a file under Machine/. -/

namespace Sys2Proof

/-- A byte `0 .. 255`; also a symbol, a command word and a stream element (00_scope.md R10, R15). -/
abbrev Byte := BitVec 8

/-- A count of `FREQ`. It is held in 64 bits, the width at `CB = 8`; at a smaller `CB` its upper bits
are 0 (10_state.md R35, 00_scope.md R8). -/
abbrev Count := BitVec 64

/-- A node weight, `WB = 72` bits at `CB = 8` (00_scope.md R8, 10_state.md R36). -/
abbrev Weight := BitVec 72

/-- A node index `0 .. 510`, held by the hardware in 9 bits; no node has index 511
(10_state.md R38, R42). -/
abbrev NodeIdx := Fin 511

/-- A memory of `2^n` records of one type, as a perfect binary tree whose two halves hold the even
and the odd addresses. Equal memories are equal data, and no address is missing. -/
inductive Table (α : Type) : Nat → Type where
  | leaf (a : α) : Table α 0
  | node {n : Nat} (even odd : Table α n) : Table α (n + 1)
  deriving DecidableEq, Repr

/-- The memory that holds `a` at every address. -/
def Table.const {α : Type} (a : α) : (n : Nat) → Table α n
  | 0 => .leaf a
  | n + 1 => .node (Table.const a n) (Table.const a n)

/-- A memory of 256 records addressed by a byte value: the shape of `FREQ` and `CODE`
(10_state.md R35, R45). -/
abbrev ByteTable (α : Type) := Table α 8

end Sys2Proof
end

