-- ==== Sys2Proof/Syntax.lean ====
section
/-! DEFINITION. The instructions of HFC: the eight host-issued commands, one constructor per row of
spec/opcode_table.json (spec/30_encoding.md R101). No command has an operand (R102). -/

namespace Sys2Proof

/-- A command of the command port (00_scope.md R2, 30_encoding.md R101, R102). -/
inductive Instr where
  /-- `CLEAR`, 46_control.md R281 -/
  | clear
  /-- `ANALYZE`, 40_frequency.md R141 -/
  | analyze
  /-- `BUILD`, 42_tree_builder.md R181 -/
  | build
  /-- `GENCODE`, 43_code_table.md R201 -/
  | gencode
  /-- `WRHDR`, 44_encoder.md R221 -/
  | wrhdr
  /-- `ENCODE`, 44_encoder.md R224 -/
  | encode
  /-- `RDHDR`, 45_decoder.md R251 -/
  | rdhdr
  /-- `DECODE`, 45_decoder.md R256 -/
  | decode
  deriving DecidableEq, Repr

end Sys2Proof
end

