-- ==== Sys2Proof/WellFormed.lean ====
section
/-! DEFINITION. Which commands and which command words are well formed (spec/30_encoding.md R100,
R102, R103). -/

namespace Sys2Proof

/-- Every command is well formed: none carries an immediate, a register number, an address or a mode
field that could be out of range (30_encoding.md R102). -/
def Instr.wellFormed : Instr → Bool
  | .clear => true
  | .analyze => true
  | .build => true
  | .gencode => true
  | .wrhdr => true
  | .encode => true
  | .rdhdr => true
  | .decode => true

/-- A command word is legal when its opcode is one of `0x01 .. 0x08`; the other 248 values are
illegal (30_encoding.md R103). -/
def legalWord (w : Byte) : Bool :=
  1 ≤ w.toNat && w.toNat ≤ 8

end Sys2Proof
end

