-- ==== Sys2Proof/Decode.lean ====
section
/-! DEFINITION. The command decoder and encoder: one format `C8`, an 8-bit word whose only field is
the opcode in bits 7:0 (spec/30_encoding.md R100, R101; spec/opcode_table.json). -/

namespace Sys2Proof

/-- One row of the opcode map: a word `w` is this command when `w &&& mask = pattern`
(30_encoding.md R101). -/
structure OpRow where
  mask : Byte
  pattern : Byte
  instr : Instr
  deriving DecidableEq, Repr

/-- The opcode map of 30_encoding.md R101: `mask = 0xFF`, `match = OP`. -/
def opcodeMap : List OpRow :=
  [ ⟨0xFF, 0x01, .clear⟩, ⟨0xFF, 0x02, .analyze⟩, ⟨0xFF, 0x03, .build⟩, ⟨0xFF, 0x04, .gencode⟩,
    ⟨0xFF, 0x05, .wrhdr⟩, ⟨0xFF, 0x06, .encode⟩, ⟨0xFF, 0x07, .rdhdr⟩, ⟨0xFF, 0x08, .decode⟩ ]

/-- Whether a command word is the row's command. -/
def OpRow.matchesWord (r : OpRow) (w : Byte) : Bool :=
  w &&& r.mask == r.pattern

/-- The command a word stands for; `none` for the 248 illegal words (30_encoding.md R101, R103). -/
def decodeWord (w : Byte) : Option Instr :=
  (opcodeMap.find? (fun r => r.matchesWord w)).map OpRow.instr

/-- Why a sequence of command words has no first command. -/
inductive DecodeError where
  /-- there is no word -/
  | noWord
  /-- the first word is one of the 248 illegal encodings (30_encoding.md R103) -/
  | illegalWord (w : Byte)
  deriving DecidableEq, Repr

/-- The first command of a sequence of command words, and the words after it. Every command has the
length of one word (30_encoding.md R100). -/
def decode : List Byte → Except DecodeError (Instr × List Byte)
  | [] => .error .noWord
  | w :: rest =>
    match decodeWord w with
    | some i => .ok (i, rest)
    | none => .error (.illegalWord w)

/-- The opcode of a command (30_encoding.md R101). -/
def opcode : Instr → Byte
  | .clear => 0x01
  | .analyze => 0x02
  | .build => 0x03
  | .gencode => 0x04
  | .wrhdr => 0x05
  | .encode => 0x06
  | .rdhdr => 0x07
  | .decode => 0x08

/-- The command words of a command: one word, its opcode (30_encoding.md R100, R101). -/
def encode (i : Instr) : List Byte :=
  [opcode i]

/-- The command word whose bits are the low `nbits` bits of `w`, the bits above them 0. -/
def tableWord (nbits w : Nat) : Byte :=
  BitVec.ofNat 8 (w % 2 ^ nbits)

/-- The command the decoder reads from the word whose bits are `w`, bit 0 least significant. -/
def decodeTableWord (nbits w : Nat) : Option Instr :=
  match decode [tableWord nbits w] with
  | .ok (i, _) => some i
  | .error _ => none

end Sys2Proof
end

