-- ==== Sys2Proof/Config.lean ====
section
/-! DEFINITION. What is fixed for one HFC core (spec/00_scope.md R8) and the one open value of the
spec, what a register read returns while a command runs (spec/20_memory.md R82). -/

namespace Sys2Proof.Config

/-- `NSYM`: number of symbols (00_scope.md R8). -/
abbrev nsym : Nat := 256

/-- `MAXNODES = 2*NSYM - 1`: records of the node arena (00_scope.md R8, 10_state.md R38). -/
abbrev maxNodes : Nat := 511

/-- `PQCAP`: capacity of the priority order (00_scope.md R8, 10_state.md R42). -/
abbrev pqCap : Nat := 256

/-- `MAXLEN = NSYM - 1`: the longest code in bits (00_scope.md R8). -/
abbrev maxLen : Nat := 255

/-- The parameter `CB`, `1 <= CB <= 8`, stored as `CB - 1` so that no other value exists
(00_scope.md R8; 92_eei_decisions.md D2: the model takes `CB` as an argument). -/
abbrev CountBytes := Fin 8

/-- The value of `CB` this hardware takes, `CB = 8` (00_scope.md R8). -/
def defaultCB : CountBytes := 7

/-- FREE VALUE: the 64-bit value the `n`-th register read made while the core is busy returns, for
any register other than `STATUS` (20_memory.md R82: "an unspecified 64-bit value (the model treats
it as a free draw, with no relation to the state)"). It has no body, so no statement can rest on a
value of it. notes/assumptions/6.md. -/
opaque unspecifiedRead : Nat → BitVec 64

end Sys2Proof.Config
end

