-- ==== Sys2Proof/Machine/State.lean ====
section
/-! DEFINITION. The state of the HFC core and of its host side as plain data, the reasons a step can
stop, and the state after reset (spec/10_state.md; spec/70_reset_and_hazards.md R340, R341). -/

namespace Sys2Proof.Machine

/-- The field `KIND` of a node: 0 = Leaf, 1 = Internal (10_state.md R38). -/
inductive NodeKind where
  | leaf
  | internal
  deriving DecidableEq, Repr

/-- One record of `NODE` (10_state.md R38): `sym` is 0 in an Internal node, `left` and `right` are 0
in a Leaf. -/
structure Node where
  kind : NodeKind
  sym : Byte
  w : Weight
  left : NodeIdx
  right : NodeIdx
  deriving DecidableEq, Repr

/-- The all-zero record, which every unused record of `NODE` holds (10_state.md R40). -/
def Node.zero : Node :=
  { kind := .leaf, sym := 0, w := 0, left := 0, right := 0 }

/-- One record of `CODE` (10_state.md R45): `bits` is the code as a number, first bit most
significant among the low `len` bits. -/
structure CodeRec where
  valid : Bool
  len : BitVec 8
  bits : BitVec 255
  deriving DecidableEq, Repr

/-- The record of a symbol without a code, `VALID = 0`, `LEN = 0`, `BITS = 0` (10_state.md R45). -/
def CodeRec.none : CodeRec :=
  { valid := false, len := 0, bits := 0 }

/-- The value of `ERR`: no fault, or the kind of the first fault (60_exceptions.md R300). The values
9 to 15 are never written and do not exist here (93_implementation_defined.md U11). -/
inductive Err where
  | none
  | sourceOpenFailure
  | destinationOpenFailure
  | emptyOrUnreadableInput
  | malformedStream
  | illegalCommand
  | sequenceError
  | noCodeForSymbol
  | countOverflow
  deriving DecidableEq, Repr

/-- Where in its pseudocode a running command stands while `PHASE = 1`. One constructor per loop of
the commands' pseudocode; the data is what that loop still has to do. This is the command's internal
scratch (10_state.md R58): no register shows it. -/
inductive Task where
  /-- accepted, nothing executed yet but the first write of `CLEAR`, `ERR <- 0` (46_control.md R283
  line 7, R281) -/
  | start (i : Instr)
  /-- the byte loop of `ANALYZE` (40_frequency.md R141) -/
  | analyze
  /-- the load loop of `BUILD`, next symbol `next` (42_tree_builder.md R181) -/
  | buildLoad (next : Nat)
  /-- the merge loop of `BUILD` (42_tree_builder.md R181) -/
  | buildMerge
  /-- the walk of `GENCODE`: nodes still to visit with their paths, the next one first
  (43_code_table.md R201, R204) -/
  | gencode (stack : List (NodeIdx × List Bool))
  /-- the byte loop of `WRHDR`, next byte `byte` of the count of `sym` (44_encoder.md R221) -/
  | wrhdr (sym byte : Nat)
  /-- the byte loop of `ENCODE`, with the bits of the current code still to put (44_encoder.md R224) -/
  | encode (pending : List Bool)
  /-- the byte loop of `RDHDR`, next byte `byte` of the count of `sym`, and the part of that count
  assembled so far (45_decoder.md R251) -/
  | rdhdr (sym byte : Nat) (v : Count)
  /-- the byte loop of `DECODE`, with the bits of the current byte still to walk (45_decoder.md R256) -/
  | decode (pending : List Bool)
  deriving DecidableEq, Repr

/-- Which command is in its `Flushing` phase: only `ENCODE` and `DECODE` have one (46_control.md
R285). -/
inductive FlushTask where
  | encode
  | decode
  deriving DecidableEq, Repr

/-- The phase register `PHASE` (10_state.md R32). The values 5, 6, 7 never occur and do not exist
here (93_implementation_defined.md U11). A busy phase carries where its command stands. -/
inductive Phase where
  /-- 0 -/
  | idle
  /-- 1, the in-progress phase of every command -/
  | streaming (t : Task)
  /-- 2 -/
  | flushing (f : FlushTask)
  /-- 3 -/
  | done
  /-- 4 -/
  | error
  deriving DecidableEq, Repr

/-- One host action: a line of a script (30_encoding.md R115), or one of the host's liberties of
70_reset_and_hazards.md R350 that a script line does not name. -/
inductive HostItem where
  /-- `RESET`: assert reset (R340); allowed at any time -/
  | reset
  /-- `SRC <bytes>`: `AttachSource` (10_state.md R55) -/
  | src (bytes : List Byte)
  /-- `NOSRC`: `DetachSource` (10_state.md R55) -/
  | nosrc
  /-- `DST`: `AttachDest` (10_state.md R56) -/
  | dst
  /-- `NODST`: `DetachDest` (10_state.md R56) -/
  | nodst
  /-- a command name, or `RAW <hex byte>`: offer the word until it is taken, then wait until the core
  is ready again (30_encoding.md R115, R118) -/
  | cmd (w : Byte)
  /-- offer the word once and do not wait: the core takes it if it is ready; otherwise the host
  withdraws it (30_encoding.md R118) -/
  | offer (w : Byte)
  /-- leave the core alone for one of its steps -/
  | wait
  /-- `RD <addr>`: read the register of that number (46_control.md R282) -/
  | rd (a : BitVec 12)
  /-- the host's rule of the two pseudo-instructions: stop here if `STATUS.ERR != 0`
  (46_control.md R286, R287) -/
  | stopIfError
  deriving DecidableEq, Repr

/-- The whole state. The comment on each field names the rule of spec/ that gives it. -/
@[ext]
structure State where
  /-- `PHASE`, 3 bits (10_state.md R32) -/
  phase : Phase
  /-- `ERR`, 4 bits (10_state.md R33) -/
  err : Err
  /-- `TV`, 1 bit: the tree is valid (10_state.md R34) -/
  tv : Bool
  /-- `CV`, 1 bit: the code table is valid (10_state.md R34) -/
  cv : Bool
  /-- `FREQ[0 .. 255]` (10_state.md R35) -/
  freq : ByteTable Count
  /-- `NODE[0 .. NNODES-1]`, the records in use in order of their index; the register `NNODES` is the
  list's length and every record beyond it is all-zero (10_state.md R38, R40) -/
  nodes : List Node
  /-- `PQ[0 .. PQLEN-1]`, head first; the register `PQLEN` is the list's length and every entry beyond
  it reads `0x1FF` (10_state.md R42) -/
  pq : List NodeIdx
  /-- `ROOT`, 9 bits (10_state.md R44) -/
  root : NodeIdx
  /-- `CODE[0 .. 255]` (10_state.md R45) -/
  code : ByteTable CodeRec
  /-- `ACC`, 8 bits (10_state.md R48) -/
  acc : Byte
  /-- `ACCN`, 3 bits (10_state.md R48) -/
  accn : Fin 8
  /-- `CUR`, 9 bits (10_state.md R49) -/
  cur : NodeIdx
  /-- the parameter `CB`, which the constant register `PARAM` shows (00_scope.md R8, 10_state.md R52);
  nothing writes it -/
  cb : Config.CountBytes
  /-- `SRC_OK`, 1 bit, driven by the host (10_state.md R50) -/
  srcOk : Bool
  /-- `DST_OK`, 1 bit, driven by the host (10_state.md R50) -/
  dstOk : Bool
  /-- `ISTR`, the remaining source stream (10_state.md R55) -/
  istr : List Byte
  /-- `OSTR`, the destination stream so far (10_state.md R56) -/
  ostr : List Byte
  /-- the host actions still to come, the next one first (30_encoding.md R115); the model's own field -/
  script : List HostItem
  /-- the value of the last register read on the register read port (30_encoding.md R118); the model's
  own field -/
  readData : BitVec 64
  /-- how many reads have been answered by a free value (20_memory.md R82); the model's own field -/
  draws : Nat
  deriving DecidableEq, Repr

/-- Why a step stops with a fault. The spec's own faults are no such stops: a `raise` is a next state
(60_exceptions.md R302). The constructors guard what the spec says a command never does, so no run
from reset reaches one. -/
inductive Fault where
  /-- `leaf` or `internal` with `NNODES = 511`, which 10_state.md R41 excludes. Raised by the
  allocation primitives; safe: the model stops. -/
  | arenaFull
  /-- `insert` with `PQLEN = 256`, which 41_priority_order.md R161 excludes. Raised by `insert`; safe:
  the model stops. -/
  | orderFull
  /-- `BUILD` takes an entry from an empty order, which 41_priority_order.md R162 excludes. Raised by
  `BUILD`; safe: the model stops. -/
  | orderEmpty
  /-- the walk of `GENCODE` goes deeper than 255 edges, which 43_code_table.md R201 excludes
  (`len(path) <= 255`). Raised by `GENCODE`; safe: the model stops. -/
  | walkTooDeep
  deriving DecidableEq, Repr

/-- Why a step is refused: the model gives the state no meaning. -/
inductive Refusal where
  /-- an instruction that has no meaning yet. Raised by an arm of `exec` alone; safe. -/
  | notModelled (mnemonic : String)
  /-- the host attaches or detaches a stream while the core is busy: "the behaviour is undefined, and
  a model gives such a script no meaning (it refuses it)" (70_reset_and_hazards.md R344). Raised by
  the host actions `SRC`, `NOSRC`, `DST`, `NODST`; safe: the model stops. -/
  | streamChangeWhileBusy
  deriving DecidableEq, Repr

/-- The state right after power-up and reset: every piece of core state at its reset value
(10_state.md R59), no stream attached and both streams empty (70_reset_and_hazards.md R341), no host
action to come, nothing read yet. -/
def State.reset : State :=
  { phase := .idle
    err := .none
    tv := false
    cv := false
    freq := Table.const 0 8
    nodes := []
    pq := []
    root := 0
    code := Table.const CodeRec.none 8
    acc := 0
    accn := 0
    cur := 0
    cb := Config.defaultCB
    srcOk := false
    dstOk := false
    istr := []
    ostr := []
    script := []
    readData := 0
    draws := 0 }

end Sys2Proof.Machine
end

