-- ==== Sys2Proof/Machine/Operands.lean ====
section
/-! DEFINITION. The implicit operands of the commands (spec/30_encoding.md R102): the parameters
derived from `CB`, access to the records of the four memories, the two stream primitives, and the
byte and bit orders of the two streams (spec/00_scope.md R8, R12; spec/20_memory.md R72, R73). -/

namespace Sys2Proof

variable {α : Type}

/-- The record of a memory at an address. -/
def Table.get {n : Nat} : Table α n → Nat → α
  | .leaf a, _ => a
  | .node e o, k => if k % 2 = 0 then e.get (k / 2) else o.get (k / 2)

/-- The memory with the record at an address replaced. -/
def Table.set {n : Nat} : Table α n → Nat → α → Table α n
  | .leaf _, _, v => .leaf v
  | .node e o, k, v => if k % 2 = 0 then .node (e.set (k / 2) v) o else .node e (o.set (k / 2) v)

/-- The record of a byte value. -/
def Table.atByte (t : ByteTable α) (b : Byte) : α :=
  t.get b.toNat

/-- The memory with the record of a byte value replaced. -/
def Table.putByte (t : ByteTable α) (b : Byte) (v : α) : ByteTable α :=
  t.set b.toNat v

/-- All symbols in ascending order, `0, 1, .., 255`. -/
def allSymbols : List Byte :=
  (List.range 256).map (BitVec.ofNat 8)

namespace Machine

/-- The parameter `CB`: bytes per count (00_scope.md R8). -/
def countBytes (cb : Config.CountBytes) : Nat :=
  cb.val + 1

/-- `CMAX = 2^(8*CB) - 1`: the largest count (00_scope.md R8). -/
def countMax (cb : Config.CountBytes) : Nat :=
  2 ^ (8 * countBytes cb) - 1

/-- `WB = 8*CB + 8`: bits of a node weight (00_scope.md R8). -/
def weightBits (cb : Config.CountBytes) : Nat :=
  8 * countBytes cb + 8

/-- `HDRLEN = 256*CB`: bytes of the header (00_scope.md R8). -/
def headerLen (cb : Config.CountBytes) : Nat :=
  256 * countBytes cb

/-- `ISTR <- bs`. -/
def State.setIstr (s : State) (bs : List Byte) : State :=
  { s with istr := bs }

/-- Replace the records in use of `NODE`, and with them `NNODES`. -/
def State.setNodes (s : State) (rs : List Node) : State :=
  { s with nodes := rs }

/-- Replace the entries of `PQ`, and with them `PQLEN`. -/
def State.setPq (s : State) (ns : List NodeIdx) : State :=
  { s with pq := ns }

/-- `SrcRead()`: `none` is `EOF` and changes nothing; otherwise the first byte of `ISTR` is removed
and returned (00_scope.md R12). -/
def State.srcRead (s : State) : Option Byte × State :=
  match s.istr with
  | [] => (none, s)
  | b :: rest => (some b, s.setIstr rest)

/-- `SrcEmpty()`: the predicate `ISTR = []` (00_scope.md R12). -/
def State.srcEmpty (s : State) : Bool :=
  s.istr.isEmpty

/-- `DstWrite(b)`: append one byte to `OSTR` (00_scope.md R12). -/
def State.dstWrite (s : State) (b : Byte) : State :=
  { s with ostr := s.ostr ++ [b] }

/-- `FREQ[b]` (10_state.md R35). -/
def State.freqAt (s : State) (b : Byte) : Count :=
  s.freq.atByte b

/-- `FREQ[b] <- v`. -/
def State.setFreq (s : State) (b : Byte) (v : Count) : State :=
  { s with freq := s.freq.putByte b v }

/-- `CODE[b]` (10_state.md R45). -/
def State.codeAt (s : State) (b : Byte) : CodeRec :=
  s.code.atByte b

/-- `CODE[b] <- r`. -/
def State.setCode (s : State) (b : Byte) (r : CodeRec) : State :=
  { s with code := s.code.putByte b r }

/-- `NNODES`: the number of arena records in use (10_state.md R40). -/
def State.nnodes (s : State) : Nat :=
  s.nodes.length

/-- `PQLEN`: the number of entries of the priority order (10_state.md R42). -/
def State.pqlen (s : State) : Nat :=
  s.pq.length

/-- `NODE[n]`: the record allocated at `n`, all-zero where none is (10_state.md R38, R40). -/
def State.nodeAt (s : State) (n : NodeIdx) : Node :=
  (s.nodes[n.val]?).getD Node.zero

/-- `isLeaf(n)`: `NODE[n].KIND = 0` (00_scope.md R14). -/
def State.isLeaf (s : State) (n : NodeIdx) : Bool :=
  (s.nodeAt n).kind == .leaf

/-- `W(n)` (00_scope.md R14). -/
def State.weight (s : State) (n : NodeIdx) : Weight :=
  (s.nodeAt n).w

/-- The child of `n` an edge leads to: "left edge = 0, right edge = 1" (00_scope.md R14). -/
def State.child (s : State) (n : NodeIdx) (edge : Bool) : NodeIdx :=
  if edge then (s.nodeAt n).right else (s.nodeAt n).left

/-- Byte `j` of a count, `v[8j+7 : 8j]`; `j = 0` is the least significant (20_memory.md R72). -/
def countByte (v : Count) (j : Nat) : Byte :=
  v.extractLsb' (8 * j) 8

/-- A header byte as its part of the count, `b * 2^(8j)` (30_encoding.md R108). -/
def countPart (b : Byte) (j : Nat) : Count :=
  b.setWidth 64 <<< (8 * j)

/-- The eight bits of a body byte, most significant first (20_memory.md R73). -/
def byteBits (b : Byte) : List Bool :=
  (List.range 8).map (fun k => b.getLsbD (7 - k))

/-- `v[i] <- c` in a byte. -/
def setBit (v : Byte) (i : Nat) (c : Bool) : Byte :=
  if c then v ||| (1#8 <<< i) else v &&& ~~~(1#8 <<< i)

/-- `value(path)` as a number: the number whose `len(path)`-bit binary form, most significant bit
first, is `path` (43_code_table.md R201). -/
def pathNumber (path : List Bool) : Nat :=
  path.foldl (fun v c => 2 * v + c.toNat) 0

/-- The code record of a Leaf at `path`: `VALID = 1`, `LEN = len(path)`, `BITS = value(path)`
(43_code_table.md R201). -/
def codeOfPath (path : List Bool) : CodeRec :=
  { valid := true
    len := BitVec.ofNat 8 path.length
    bits := BitVec.ofNat 255 (pathNumber path) }

/-- The code of a record, first bit first: bit `j` is `BITS[LEN-1-j]` (10_state.md R45). -/
def codeBits (r : CodeRec) : List Bool :=
  (List.range r.len.toNat).map (fun j => r.bits.getLsbD (r.len.toNat - 1 - j))

end Machine
end Sys2Proof
end

