-- ==== Sys2Proof/Machine/Flags.lean ====
section
/-! DEFINITION. The flags `TV` and `CV` (spec/10_state.md R34), HFC's only flags, and what each
command requires of the flags and the streams (spec/46_control.md R283). -/

namespace Sys2Proof.Machine

/-- `TV <- 0; CV <- 0`: the start of `ANALYZE`, `RDHDR` and `BUILD` (10_state.md R34). -/
def State.clearFlags (s : State) : State :=
  { s with tv := false, cv := false }

/-- `TV <- 1`: `BUILD` completes without fault (10_state.md R34). -/
def State.setTv (s : State) : State :=
  { s with tv := true }

/-- `CV <- v`: `GENCODE` clears it at its start and sets it when it completes (10_state.md R34). -/
def State.setCv (s : State) (v : Bool) : State :=
  { s with cv := v }

/-- The flag a command requires. -/
inductive NeededFlag where
  | none
  | tv
  | cv
  deriving DecidableEq, Repr

/-- A row of the table of 46_control.md R283. -/
structure Needs where
  flag : NeededFlag
  source : Bool
  dest : Bool
  deriving DecidableEq, Repr

/-- What each command needs: the table of 46_control.md R283. -/
def needs : Instr → Needs
  | .clear => ⟨.none, false, false⟩
  | .analyze => ⟨.none, true, false⟩
  | .build => ⟨.none, false, false⟩
  | .gencode => ⟨.tv, false, false⟩
  | .wrhdr => ⟨.none, false, true⟩
  | .encode => ⟨.cv, true, true⟩
  | .rdhdr => ⟨.none, true, false⟩
  | .decode => ⟨.tv, true, true⟩

/-- Whether the required flag is 1. -/
def State.flagHolds (s : State) : NeededFlag → Bool
  | .none => true
  | .tv => s.tv
  | .cv => s.cv

end Sys2Proof.Machine
end

