-- ==== Sys2Proof/Machine/Ops.lean ====
section
/-! DEFINITION. The operations the commands share: fault entry, the core's reset values, command
acceptance, the loop over the source stream, and the allocation primitives of the node arena. -/

namespace Sys2Proof.Machine

/-- What a step of this machine answers. -/
abbrev Result := Host.Outcome State Fault Refusal

/-- An operation that may meet one of the model's guards, as an outcome. -/
def ofExcept : Except Fault State → Result
  | .ok s => .next s
  | .error f => .fault f

/-- `PHASE <- p`. -/
def State.setPhase (s : State) (p : Phase) : State :=
  { s with phase := p }

/-- `PHASE <- 3`: a command other than `CLEAR` completes (46_control.md R284). -/
def State.complete (s : State) : State :=
  s.setPhase .done

/-- Taking a fault, `raise <Kind>`: `ERR <- code(<Kind>)`, `PHASE <- 4`, and nothing else; what the
command wrote before stays written (00_scope.md R13, 60_exceptions.md R302). -/
def State.raise (s : State) (e : Err) : State :=
  { s with err := e, phase := .error }

/-- Leaving the `Error` phase, by `CLEAR` or by reset: every piece of core state takes its reset
value, and the host's `SRC_OK`, `DST_OK`, `ISTR`, `OSTR` are not changed (10_state.md R59,
46_control.md R281, 70_reset_and_hazards.md R340, R341; 60_exceptions.md R314). -/
def State.clearCore (s : State) : State :=
  { s with
    err := .none, tv := false, cv := false
    freq := Table.const 0 8, code := Table.const CodeRec.none 8
    nodes := [], pq := [], root := 0
    acc := 0, accn := 0, cur := 0
    phase := .idle }

/-- The core is busy when `PHASE` is 1 or 2 (10_state.md R32). -/
def State.busy (s : State) : Bool :=
  match s.phase with
  | .streaming _ => true
  | .flushing _ => true
  | .idle => false
  | .done => false
  | .error => false

/-- What happens to a command word offered on the command port (46_control.md R283). -/
inductive Acceptance where
  /-- line 1: not taken, no effect at all -/
  | notTaken
  /-- line 2: taken and ignored -/
  | ignored
  /-- lines 3 to 6: a fault before any other state is touched -/
  | raised (e : Err)
  /-- line 7: the command runs -/
  | runs (i : Instr)
  deriving DecidableEq, Repr

/-- Lines 3 to 7 of 46_control.md R283, in their order (60_exceptions.md R310). -/
def State.check (s : State) : Option Instr → Acceptance
  | none => .raised .illegalCommand
  | some i =>
    if s.flagHolds (needs i).flag = false then .raised .sequenceError
    else if (needs i).source && !s.srcOk then .raised .sourceOpenFailure
    else if (needs i).dest && !s.dstOk then .raised .destinationOpenFailure
    else .runs i

/-- Acceptance of an offered word, given as the command it decodes to (`none`: an illegal word):
the first matching line of 46_control.md R283. -/
def State.acceptance (s : State) (c : Option Instr) : Acceptance :=
  match s.phase with
  | .streaming _ => .notTaken
  | .flushing _ => .notTaken
  | .error => if c = some .clear then s.check c else .ignored
  | .idle => s.check c
  | .done => s.check c

/-- `PHASE <- 1`: the command is accepted and runs (46_control.md R283 line 7). For `CLEAR`, whose first
line is `ERR <- 0`, that write comes with it, so that `ERR` is not 0 in `PHASE = 4` only and every
command that runs starts with `ERR = 0` (10_state.md R33, 46_control.md R281, 60_exceptions.md R311). -/
def State.begin (s : State) (i : Instr) : State :=
  { s with
    phase := .streaming (.start i)
    err := if i = .clear then .none else s.err }

/-- The command `i` is offered; if it is accepted its body runs to completion
(46_control.md R283, R284). -/
def runCommand (i : Instr) (body : State → Result) (s : State) : Result :=
  match s.acceptance (some i) with
  | .notTaken => .next s
  | .ignored => .next s
  | .raised e => .next (s.raise e)
  | .runs _ => body (s.begin i)

/-- The loop of the commands that read `ISTR` to its end (40_frequency.md R141, 44_encoder.md R224,
45_decoder.md R256): read a byte; at `EOF` leave the loop with `finish`; otherwise let `body` handle
it, and stop with a `raise` if `body` says so. `fuel` is the number of bytes that are left. -/
def streamLoop (body : Byte → State → Option Err × State) (finish : State → State) :
    (fuel : Nat) → State → State
  | 0, s => finish s
  | fuel + 1, s =>
    match s.srcRead with
    | (none, s1) => finish s1
    | (some b, s1) =>
      match body b s1 with
      | (some e, s2) => s2.raise e
      | (none, s2) => streamLoop body finish fuel s2

/-- Append a record to the arena at index `NNODES`, and its index: `n <- NNODES; NODE[n] <- r;
NNODES <- NNODES + 1; return n` (10_state.md R41). With `NNODES = 511`, which R41 excludes, the
model stops. -/
def State.alloc (s : State) (r : Node) : Except Fault (NodeIdx × State) :=
  if h : s.nodes.length < 511 then
    .ok (⟨s.nodes.length, h⟩, s.setNodes (s.nodes ++ [r]))
  else .error .arenaFull

/-- The allocation primitive `leaf(s, w)` (10_state.md R41). -/
def State.leaf (s : State) (sym : Byte) (w : Weight) : Except Fault (NodeIdx × State) :=
  s.alloc { kind := .leaf, sym := sym, w := w, left := 0, right := 0 }

/-- The allocation primitive `internal(w, l, r)` (10_state.md R41). -/
def State.internal (s : State) (w : Weight) (l r : NodeIdx) : Except Fault (NodeIdx × State) :=
  s.alloc { kind := .internal, sym := 0, w := w, left := l, right := r }

end Sys2Proof.Machine
end

