-- ==== Sys2Proof/Machine/CodeTable.lean ====
section
/-! DEFINITION. The code table generator: the command `GENCODE` (spec/43_code_table.md). -/

namespace Sys2Proof.Machine

/-- The lines of `GENCODE` before its walk: `CV <- 0` and every record zeroed (43_code_table.md R201). -/
def State.gencodeStart (s : State) : State :=
  { s.setCv false with code := Table.const CodeRec.none 8 }

/-- The Leaf case of the walk: `CODE[SYM] <- {VALID=1, LEN=len(path), BITS=value(path)}`
(43_code_table.md R201). -/
def State.visitLeaf (s : State) (n : NodeIdx) (path : List Bool) : State :=
  s.setCode (s.nodeAt n).sym (codeOfPath path)

/-- `walk(n, path)`: depth first, the left subtree before the right (43_code_table.md R201, R204).
`fuel` is the number of levels left; a path longer than 255 bits, which R201 excludes, stops the
model. -/
def walk : (fuel : Nat) → NodeIdx → List Bool → State → Except Fault State
  | 0, _, _, _ => .error .walkTooDeep
  | fuel + 1, n, path, s =>
    if s.isLeaf n then .ok (s.visitLeaf n path)
    else
      match walk fuel (s.nodeAt n).left (path ++ [false]) s with
      | .error f => .error f
      | .ok s1 => walk fuel (s1.nodeAt n).right (path ++ [true]) s1

/-- The last lines of `GENCODE`: `CV <- 1; PHASE <- 3` (43_code_table.md R201). -/
def State.gencodeFinish (s : State) : State :=
  (s.setCv true).complete

/-- The pseudocode of `GENCODE` after acceptance (43_code_table.md R201). -/
def gencodeBody (s : State) : Except Fault State :=
  match walk (Config.maxLen + 1) s.root [] s.gencodeStart with
  | .error f => .error f
  | .ok s1 => .ok s1.gencodeFinish

/-- `GENCODE` (43_code_table.md R201). -/
def execGencode (s : State) : Result :=
  runCommand .gencode (fun s1 => ofExcept (gencodeBody s1)) s

end Sys2Proof.Machine
end

