-- ==== Sys2Proof/Machine/Control.lean ====
section
/-! DEFINITION. The command `CLEAR` (spec/46_control.md R281). -/

namespace Sys2Proof.Machine

/-- `CLEAR` (46_control.md R281): the only command accepted in `PHASE = 4`. -/
def execClear (s : State) : Result :=
  runCommand .clear (fun s1 => .next s1.clearCore) s

end Sys2Proof.Machine
end

