-- ==== Sys2Proof/Machine/Frequency.lean ====
section
/-! DEFINITION. The frequency analyzer: the command `ANALYZE` (spec/40_frequency.md). -/

namespace Sys2Proof.Machine

/-- The lines before the loop of `ANALYZE` (and of `RDHDR`): clear both flags and every count
(40_frequency.md R141, 45_decoder.md R251). -/
def State.zeroCounts (s : State) : State :=
  { s.clearFlags with freq := Table.const 0 8 }

/-- One byte of `ANALYZE`: `CountOverflow` if its count is `CMAX`, otherwise the count increases by
one (40_frequency.md R141, R142, R143). -/
def analyzeByte (b : Byte) (s : State) : Option Err × State :=
  if (s.freqAt b).toNat = countMax s.cb then (some .countOverflow, s)
  else (none, s.setFreq b (s.freqAt b + 1))

/-- The pseudocode of `ANALYZE` after acceptance (40_frequency.md R141). -/
def analyzeBody (s : State) : State :=
  streamLoop analyzeByte State.complete s.istr.length s.zeroCounts

/-- `ANALYZE` (40_frequency.md R141). -/
def execAnalyze (s : State) : Result :=
  runCommand .analyze (fun s1 => .next (analyzeBody s1)) s

end Sys2Proof.Machine
end

