-- ==== Sys2Proof/Machine/Decoder.lean ====
section
/-! DEFINITION. The bitstream decoder: the commands `RDHDR` and `DECODE` (spec/45_decoder.md). -/

namespace Sys2Proof.Machine

/-- The inner loop of `RDHDR`: read `left` more bytes of a count, the next one byte `j`, onto the part
`v` assembled so far; `none` if `ISTR` ends first (45_decoder.md R251, R252). -/
def readCount : (left j : Nat) → (v : Count) → State → Option Count × State
  | 0, _, v, s => (some v, s)
  | left + 1, j, v, s =>
    match s.srcRead with
    | (none, s1) => (none, s1)
    | (some b, s1) => readCount left (j + 1) (v + countPart b j) s1

/-- The outer loop of `RDHDR` over a list of symbols: the state after it, `MalformedStream` raised if
`ISTR` ended first (45_decoder.md R251, R252). -/
def readHeader : List Byte → State → State
  | [], s => s.complete
  | sym :: rest, s =>
    match readCount (countBytes s.cb) 0 0 s with
    | (none, s1) => s1.raise .malformedStream
    | (some v, s1) => readHeader rest (s1.setFreq sym v)

/-- The pseudocode of `RDHDR` after acceptance (45_decoder.md R251). -/
def rdhdrBody (s : State) : State :=
  readHeader allSymbols s.zeroCounts

/-- `RDHDR` (45_decoder.md R251). -/
def execRdhdr (s : State) : Result :=
  runCommand .rdhdr (fun s1 => .next (rdhdrBody s1)) s

/-- `CUR <- n`. -/
def State.setCur (s : State) (n : NodeIdx) : State :=
  { s with cur := n }

/-- One bit of `DECODE`: one edge down; a Leaf's symbol is written and the cursor goes back to the
root (45_decoder.md R256, R257). -/
def State.walkBit (s : State) (c : Bool) : State :=
  if s.isLeaf (s.child s.cur c) then
    ((s.setCur (s.child s.cur c)).dstWrite (s.nodeAt (s.child s.cur c)).sym).setCur s.root
  else s.setCur (s.child s.cur c)

/-- `walkBit` of each bit of a list in order. -/
def State.walkBits (s : State) (cs : List Bool) : State :=
  cs.foldl State.walkBit s

/-- One byte of `DECODE`: its eight bits, most significant first (45_decoder.md R256). -/
def decodeByte (b : Byte) (s : State) : Option Err × State :=
  (none, s.walkBits (byteBits b))

/-- The pseudocode of `DECODE` after acceptance (45_decoder.md R256); the Leaf root is R258. -/
def decodeBody (s : State) : State :=
  if (s.setCur s.root).isLeaf s.root then
    if (s.setCur s.root).srcEmpty then (s.setCur s.root).complete
    else (s.setCur s.root).raise .malformedStream
  else streamLoop decodeByte State.complete s.istr.length (s.setCur s.root)

/-- `DECODE` (45_decoder.md R256). -/
def execDecode (s : State) : Result :=
  runCommand .decode (fun s1 => .next (decodeBody s1)) s

end Sys2Proof.Machine
end

