-- ==== Sys2Proof/Machine/Encoder.lean ====
section
/-! DEFINITION. The bitstream encoder: the commands `WRHDR` and `ENCODE` (spec/44_encoder.md). -/

namespace Sys2Proof.Machine

/-- The bytes of one count, least significant first: `FREQ[sym][8j+7 : 8j]` for `j = 0 .. CB-1`
(44_encoder.md R221, 20_memory.md R72). -/
def State.countField (s : State) (sym : Byte) : List Byte :=
  (List.range (countBytes s.cb)).map (countByte (s.freqAt sym))

/-- The header: the counts of symbols 0, 1, .., 255 in that order (30_encoding.md R107). -/
def State.headerBytes (s : State) : List Byte :=
  allSymbols.flatMap s.countField

/-- `DstWrite` of each byte of a list in order. -/
def State.dstWriteAll (s : State) (bs : List Byte) : State :=
  bs.foldl State.dstWrite s

/-- The pseudocode of `WRHDR` after acceptance (44_encoder.md R221). -/
def wrhdrBody (s : State) : State :=
  (s.dstWriteAll s.headerBytes).complete

/-- `WRHDR` (44_encoder.md R221). -/
def execWrhdr (s : State) : Result :=
  runCommand .wrhdr (fun s1 => .next (wrhdrBody s1)) s

/-- `ACC <- 0; ACCN <- 0`. -/
def State.clearAcc (s : State) : State :=
  { s with acc := 0, accn := 0 }

/-- `putbit(c)`: place the bit at position `7 - ACCN`; the eighth bit writes the byte and clears the
accumulator (44_encoder.md R224, R225). -/
def State.putbit (s : State) (c : Bool) : State :=
  if s.accn = 7 then (s.dstWrite (setBit s.acc (7 - s.accn.val) c)).clearAcc
  else { s with acc := setBit s.acc (7 - s.accn.val) c, accn := s.accn + 1 }

/-- `putbit` of each bit of a list in order. -/
def State.putbits (s : State) (cs : List Bool) : State :=
  cs.foldl State.putbit s

/-- One byte of `ENCODE`: `NoCodeForSymbol` if it has no code, otherwise the bits of its code, first
bit first (44_encoder.md R224, R229). -/
def encodeByte (b : Byte) (s : State) : Option Err × State :=
  if (s.codeAt b).valid then (none, s.putbits (codeBits (s.codeAt b)))
  else (some .noCodeForSymbol, s)

/-- The `Flushing` phase of `ENCODE` and its last line: a partial byte is written as it stands
(44_encoder.md R224, R227). -/
def State.encodeFlush (s : State) : State :=
  if s.accn.val > 0 then (s.dstWrite s.acc).clearAcc.complete else s.complete

/-- The pseudocode of `ENCODE` after acceptance (44_encoder.md R224). -/
def encodeBody (s : State) : State :=
  streamLoop encodeByte State.encodeFlush s.istr.length s.clearAcc

/-- `ENCODE` (44_encoder.md R224). -/
def execEncode (s : State) : Result :=
  runCommand .encode (fun s1 => .next (encodeBody s1)) s

end Sys2Proof.Machine
end

