-- ==== Sys2Proof/Machine/Priority.lean ====
section
/-! DEFINITION. The priority order's micro-operations `insert`, `take_minimum` and `peek_minimum`
(spec/41_priority_order.md). They are not host commands; `BUILD` uses them. -/

namespace Sys2Proof.Machine

/-- The number of entries the scan of `insert(n)` passes: the entries from the head on whose weight is
`<= W(n)` (41_priority_order.md R161). -/
def State.insertPos (s : State) (n : NodeIdx) : Nat :=
  (s.pq.takeWhile (fun m => (s.weight m).toNat ≤ (s.weight n).toNat)).length

/-- `insert(n)`: place `n` after all entries of weight `<= W(n)` and before the first of strictly
greater weight (41_priority_order.md R161). With `PQLEN = 256`, which R161 excludes, the model stops. -/
def State.insert (s : State) (n : NodeIdx) : Except Fault State :=
  if s.pq.length < Config.pqCap then
    .ok (s.setPq (s.pq.take (s.insertPos n) ++ n :: s.pq.drop (s.insertPos n)))
  else .error .orderFull

/-- `take_minimum()`: remove and return the head; on an empty order return `none` and change nothing
(41_priority_order.md R162). -/
def State.takeMinimum (s : State) : Option NodeIdx × State :=
  match s.pq with
  | [] => (none, s)
  | n :: rest => (some n, s.setPq rest)

/-- `peek_minimum()`: the head, or `none`; it writes no state (41_priority_order.md R163). -/
def State.peekMinimum (s : State) : Option NodeIdx :=
  s.pq.head?

end Sys2Proof.Machine
end

