-- ==== Sys2Proof/Machine/Tree.lean ====
section
/-! DEFINITION. The tree builder: the command `BUILD` (spec/42_tree_builder.md). -/

namespace Sys2Proof.Machine

/-- The lines of `BUILD` before its loops: flags, arena, order and root re-initialised
(42_tree_builder.md R181). -/
def State.buildStart (s : State) : State :=
  { s.clearFlags with nodes := [], pq := [], root := 0 }

/-- One symbol of the load loop: a Leaf for a non-zero count, inserted into the order
(42_tree_builder.md R181, R182). -/
def loadSymbol (s : State) (b : Byte) : Except Fault State :=
  if s.freqAt b ≠ 0 then
    match s.leaf b ((s.freqAt b).setWidth 72) with
    | .error f => .error f
    | .ok (n, s1) => s1.insert n
  else .ok s

/-- The load loop over a list of symbols, in the order of the list (42_tree_builder.md R182). -/
def loadSymbols : List Byte → State → Except Fault State
  | [], s => .ok s
  | b :: rest, s =>
    match loadSymbol s b with
    | .error f => .error f
    | .ok s1 => loadSymbols rest s1

/-- `take_minimum()` as `BUILD` uses it, on an order that is not empty; on an empty one, which
41_priority_order.md R162 says `BUILD` never meets, the model stops. -/
def State.takeEntry (s : State) : Except Fault (NodeIdx × State) :=
  match s.takeMinimum with
  | (some n, s1) => .ok (n, s1)
  | (none, _) => .error .orderEmpty

/-- One merge: the two least entries become the children, first taken left, of a new Internal node of
the sum of their weights, which is inserted (42_tree_builder.md R181, R184). -/
def mergeOnce (s : State) : Except Fault State :=
  match s.takeEntry with
  | .error f => .error f
  | .ok (a, s1) =>
    match s1.takeEntry with
    | .error f => .error f
    | .ok (b, s2) =>
      match s2.internal (s2.weight a + s2.weight b) a b with
      | .error f => .error f
      | .ok (m, s3) => s3.insert m

/-- The merge loop, `while PQLEN > 1` (42_tree_builder.md R181). Each merge lowers `PQLEN` by one, so
`fuel = PQLEN` is enough. -/
def mergeLoop : (fuel : Nat) → State → Except Fault State
  | 0, s => .ok s
  | fuel + 1, s =>
    if s.pq.length > 1 then
      match mergeOnce s with
      | .error f => .error f
      | .ok s1 => mergeLoop fuel s1
    else .ok s

/-- `ROOT <- n`. -/
def State.setRoot (s : State) (n : NodeIdx) : State :=
  { s with root := n }

/-- The last lines of `BUILD`: `ROOT <- take_minimum(); TV <- 1; PHASE <- 3`
(42_tree_builder.md R181, R185). -/
def buildFinish (s : State) : Except Fault State :=
  match s.takeEntry with
  | .error f => .error f
  | .ok (r, s1) => .ok (s1.setRoot r).setTv.complete

/-- The pseudocode of `BUILD` between the load loop and the end (42_tree_builder.md R181, R183). -/
def buildTail (s : State) : Except Fault State :=
  if s.pq = [] then .ok (s.raise .emptyOrUnreadableInput)
  else
    match mergeLoop s.pq.length s with
    | .error f => .error f
    | .ok s1 => buildFinish s1

/-- The pseudocode of `BUILD` after acceptance (42_tree_builder.md R181). -/
def buildBody (s : State) : Except Fault State :=
  match loadSymbols allSymbols s.buildStart with
  | .error f => .error f
  | .ok s1 => buildTail s1

/-- `BUILD` (42_tree_builder.md R181). -/
def execBuild (s : State) : Result :=
  runCommand .build (fun s1 => ofExcept (buildBody s1)) s

end Sys2Proof.Machine
end

