-- ==== Sys2Proof/Machine/Micro.lean ====
section
/-! DEFINITION. One step of a running command: the same pseudocode as the commands' meanings, one loop
iteration at a time, so that what the host may do while the core is busy has a state to happen in
(spec/20_memory.md R79, R82; spec/46_control.md R285; spec/70_reset_and_hazards.md R340, R350). -/

namespace Sys2Proof.Machine

/-- Stay in `PHASE = 1`, the command now standing at `t`. -/
def State.standAt (s : State) (t : Task) : State :=
  s.setPhase (.streaming t)

/-- The first step of an accepted command: the lines before its loops. -/
def tickStart (i : Instr) (s : State) : Result :=
  match i with
  | .clear => .next s.clearCore
  | .analyze => .next (s.zeroCounts.standAt .analyze)
  | .build => .next (s.buildStart.standAt (.buildLoad 0))
  | .gencode => .next (s.gencodeStart.standAt (.gencode [(s.root, [])]))
  | .wrhdr => .next (s.standAt (.wrhdr 0 0))
  | .encode => .next (s.clearAcc.standAt (.encode []))
  | .rdhdr => .next (s.zeroCounts.standAt (.rdhdr 0 0 0))
  | .decode =>
    if (s.setCur s.root).isLeaf s.root then
      if (s.setCur s.root).srcEmpty then .next ((s.setCur s.root).setPhase (.flushing .decode))
      else .next ((s.setCur s.root).raise .malformedStream)
    else .next ((s.setCur s.root).standAt (.decode []))

/-- One byte of `ANALYZE`, or its end. -/
def tickAnalyze (s : State) : Result :=
  match s.srcRead with
  | (none, s1) => .next s1.complete
  | (some b, s1) =>
    match analyzeByte b s1 with
    | (some e, s2) => .next (s2.raise e)
    | (none, s2) => .next s2

/-- One symbol of the load loop of `BUILD`, or its end. -/
def tickLoad (k : Nat) (s : State) : Result :=
  if k < 256 then
    match loadSymbol s (BitVec.ofNat 8 k) with
    | .error f => .fault f
    | .ok s1 => .next (s1.standAt (.buildLoad (k + 1)))
  else if s.pq = [] then .next (s.raise .emptyOrUnreadableInput)
  else .next (s.standAt .buildMerge)

/-- One merge of `BUILD`, or its end. -/
def tickMerge (s : State) : Result :=
  if s.pq.length > 1 then ofExcept (mergeOnce s) else ofExcept (buildFinish s)

/-- One node of the walk of `GENCODE`, or its end: an Internal node's children take its place on the
stack, the left one first (43_code_table.md R204). -/
def tickGencode (stack : List (NodeIdx × List Bool)) (s : State) : Result :=
  match stack with
  | [] => .next s.gencodeFinish
  | (n, path) :: rest =>
    if path.length > Config.maxLen then .fault .walkTooDeep
    else if s.isLeaf n then .next ((s.visitLeaf n path).standAt (.gencode rest))
    else
      .next (s.standAt (.gencode
        (((s.nodeAt n).left, path ++ [false]) :: ((s.nodeAt n).right, path ++ [true]) :: rest)))

/-- The byte after byte `j` of the count of `sym` in a header. -/
def nextField (cb : Config.CountBytes) (sym j : Nat) : Nat × Nat :=
  if j + 1 < countBytes cb then (sym, j + 1) else (sym + 1, 0)

/-- One header byte of `WRHDR`, or its end. -/
def tickWrhdr (sym j : Nat) (s : State) : Result :=
  if sym < 256 then
    .next ((s.dstWrite (countByte (s.freqAt (BitVec.ofNat 8 sym)) j)).standAt
      (.wrhdr (nextField s.cb sym j).1 (nextField s.cb sym j).2))
  else .next s.complete

/-- One code bit of `ENCODE`, or the next source byte, or the end of the loop. -/
def tickEncode (pending : List Bool) (s : State) : Result :=
  match pending with
  | c :: cs => .next ((s.putbit c).standAt (.encode cs))
  | [] =>
    match s.srcRead with
    | (none, s1) => .next (s1.setPhase (.flushing .encode))
    | (some b, s1) =>
      if (s1.codeAt b).valid then .next (s1.standAt (.encode (codeBits (s1.codeAt b))))
      else .next (s1.raise .noCodeForSymbol)

/-- One header byte of `RDHDR`, or its end. -/
def tickRdhdr (sym j : Nat) (v : Count) (s : State) : Result :=
  if sym < 256 then
    match s.srcRead with
    | (none, s1) => .next (s1.raise .malformedStream)
    | (some b, s1) =>
      if j + 1 < countBytes s.cb then .next (s1.standAt (.rdhdr sym (j + 1) (v + countPart b j)))
      else .next ((s1.setFreq (BitVec.ofNat 8 sym) (v + countPart b j)).standAt (.rdhdr (sym + 1) 0 0))
  else .next s.complete

/-- One body bit of `DECODE`, or the next body byte, or the end of the loop. -/
def tickDecode (pending : List Bool) (s : State) : Result :=
  match pending with
  | c :: cs => .next ((s.walkBit c).standAt (.decode cs))
  | [] =>
    match s.srcRead with
    | (none, s1) => .next (s1.setPhase (.flushing .decode))
    | (some b, s1) => .next (s1.standAt (.decode (byteBits b)))

/-- One step of the core on its own: nothing while it is ready, otherwise one step of the running
command (46_control.md R285). -/
def tick (s : State) : Result :=
  match s.phase with
  | .idle => .next s
  | .done => .next s
  | .error => .next s
  | .flushing .encode => .next s.encodeFlush
  | .flushing .decode => .next s.complete
  | .streaming (.start i) => tickStart i s
  | .streaming .analyze => tickAnalyze s
  | .streaming (.buildLoad k) => tickLoad k s
  | .streaming .buildMerge => tickMerge s
  | .streaming (.gencode stack) => tickGencode stack s
  | .streaming (.wrhdr sym j) => tickWrhdr sym j s
  | .streaming (.encode pending) => tickEncode pending s
  | .streaming (.rdhdr sym j v) => tickRdhdr sym j v s
  | .streaming (.decode pending) => tickDecode pending s

/-- `n` steps of the core on its own. -/
def ticks : Nat → State → Result
  | 0, s => .next s
  | n + 1, s =>
    match tick s with
    | .next s1 => ticks n s1
    | .fault f => .fault f
    | .refused r => .refused r

end Sys2Proof.Machine
end

