-- ==== Sys2Proof/Machine/Registers.lean ====
section
/-! DEFINITION. The host's read-only register map (spec/10_state.md R51, R52) and the level outputs
(spec/30_encoding.md R118). -/

namespace Sys2Proof.Machine

/-- The value of `PHASE` (10_state.md R32). -/
def phaseCode : Phase → BitVec 3
  | .idle => 0
  | .streaming _ => 1
  | .flushing _ => 2
  | .done => 3
  | .error => 4

/-- The value of `ERR` (60_exceptions.md R300). -/
def errCode : Err → BitVec 4
  | .none => 0
  | .sourceOpenFailure => 1
  | .destinationOpenFailure => 2
  | .emptyOrUnreadableInput => 3
  | .malformedStream => 4
  | .illegalCommand => 5
  | .sequenceError => 6
  | .noCodeForSymbol => 7
  | .countOverflow => 8

/-- The bit of `KIND` (10_state.md R38). -/
def kindCode : NodeKind → BitVec 1
  | .leaf => 0
  | .internal => 1

/-- A node index in its 9 bits (10_state.md R38). -/
def nodeBits (n : NodeIdx) : BitVec 9 :=
  BitVec.ofNat 9 n.val

/-- `STATUS`: bits 63:12 = 0, 11:8 `ERR`, 7 = 0, 6 `DST_OK`, 5 `SRC_OK`, 4 `CV`, 3 `TV`, 2:0 `PHASE`
(10_state.md R51). -/
def State.statusWord (s : State) : BitVec 64 :=
  0#52 ++ errCode s.err ++ 0#1 ++ BitVec.ofBool s.dstOk ++ BitVec.ofBool s.srcOk
    ++ BitVec.ofBool s.cv ++ BitVec.ofBool s.tv ++ phaseCode s.phase

/-- `PARAM`: bits 3:0 `CB`, bit 4 = 1, bits 15:8 `WB` (10_state.md R52). -/
def State.paramWord (s : State) : BitVec 64 :=
  0#48 ++ BitVec.ofNat 8 (weightBits s.cb) ++ 0#3 ++ 1#1 ++ BitVec.ofNat 4 (countBytes s.cb)

/-- `ENCACC`: bits 7:0 `ACC`, bits 10:8 `ACCN` (10_state.md R52). -/
def State.encaccWord (s : State) : BitVec 64 :=
  0#53 ++ BitVec.ofNat 3 s.accn.val ++ s.acc

/-- `FREQ[b]`: bits `8*CB-1 : 0` the count, the bits above them 0 (10_state.md R52). -/
def State.freqWord (s : State) (b : Byte) : BitVec 64 :=
  ((s.freqAt b).setWidth (8 * countBytes s.cb)).setWidth 64

/-- `PQ[i]`: the node index, `0x1FF` if `i >= PQLEN` (10_state.md R42, R52). -/
def State.pqWord (s : State) (i : Nat) : BitVec 64 :=
  match s.pq[i]? with
  | some n => (nodeBits n).setWidth 64
  | none => 0x1FF#64

/-- A weight as a register shows it: the bits above `WB` read 0 (10_state.md R52). -/
def State.shownWeight (s : State) (w : Weight) : Weight :=
  (w.setWidth (weightBits s.cb)).setWidth 72

/-- `NODE[n]` word 0: `W[63:0]` (10_state.md R52). -/
def State.nodeWord0 (s : State) (r : Node) : BitVec 64 :=
  (s.shownWeight r.w).extractLsb' 0 64

/-- `NODE[n]` word 1: bits 63:35 = 0, 34 `KIND`, 33:25 `RIGHT`, 24:16 `LEFT`, 15:8 `SYM`, 7:0 `W[71:64]`
(10_state.md R52). -/
def State.nodeWord1 (s : State) (r : Node) : BitVec 64 :=
  0#29 ++ kindCode r.kind ++ nodeBits r.right ++ nodeBits r.left ++ r.sym
    ++ (s.shownWeight r.w).extractLsb' 64 8

/-- `CODE[s]` words 0 to 7: word 0 has bits 7:0 `LEN` and bit 8 `VALID`; words 1 to 4 are
`BITS[63:0]`, `BITS[127:64]`, `BITS[191:128]`, `{0, BITS[254:192]}`; words 5 to 7 are reserved and
read 0 (10_state.md R52). -/
def codeWord (r : CodeRec) : Nat → BitVec 64
  | 0 => 0#55 ++ BitVec.ofBool r.valid ++ r.len
  | 1 => r.bits.extractLsb' 0 64
  | 2 => r.bits.extractLsb' 64 64
  | 3 => r.bits.extractLsb' 128 64
  | 4 => 0#1 ++ r.bits.extractLsb' 192 63
  | _ => 0

/-- The record at an arena index given as a number, all-zero where none is allocated
(10_state.md R40). -/
def State.nodeNumbered (s : State) (n : Nat) : Node :=
  (s.nodes[n]?).getD Node.zero

/-- The value of the register numbered `a`, as the register map gives it; every reserved number reads
0 (10_state.md R52). -/
def State.register (s : State) (a : BitVec 12) : BitVec 64 :=
  if a.toNat = 0x000 then s.statusWord
  else if a.toNat = 0x001 then (nodeBits s.root).setWidth 64
  else if a.toNat = 0x002 then BitVec.ofNat 64 s.nnodes
  else if a.toNat = 0x003 then BitVec.ofNat 64 s.pqlen
  else if a.toNat = 0x004 then s.encaccWord
  else if a.toNat = 0x005 then (nodeBits s.cur).setWidth 64
  else if a.toNat = 0x006 then s.paramWord
  else if a.toNat < 0x100 then 0
  else if a.toNat < 0x200 then s.freqWord (BitVec.ofNat 8 (a.toNat - 0x100))
  else if a.toNat < 0x300 then s.pqWord (a.toNat - 0x200)
  else if a.toNat < 0x400 then 0
  else if a.toNat < 0x7FE then
    if a.toNat % 2 = 0 then s.nodeWord0 (s.nodeNumbered ((a.toNat - 0x400) / 2))
    else s.nodeWord1 (s.nodeNumbered ((a.toNat - 0x400) / 2))
  else if a.toNat < 0x800 then 0
  else codeWord (s.codeAt (BitVec.ofNat 8 ((a.toNat - 0x800) / 8))) (a.toNat % 8)

/-- `RD(a)`, the host's register read: its value goes to the read port and no core state changes.
While the core is busy only `STATUS` returns a specified value; any other read is answered by the next
free value (46_control.md R282, 20_memory.md R82). -/
def State.readRegister (s : State) (a : BitVec 12) : State :=
  if s.busy ∧ a.toNat ≠ 0 then
    { s with readData := Config.unspecifiedRead s.draws, draws := s.draws + 1 }
  else { s with readData := s.register a }

/-- The level output `busy = PHASE in 1, 2` (30_encoding.md R118). -/
def State.busyOut (s : State) : Bool :=
  s.busy

/-- The level output `done = PHASE = 3` (30_encoding.md R118). -/
def State.doneOut (s : State) : Bool :=
  s.phase == .done

/-- The level output `error = PHASE = 4` (30_encoding.md R118). -/
def State.errorOut (s : State) : Bool :=
  s.phase == .error

end Sys2Proof.Machine
end

