-- ==== Sys2Proof/Machine/HostPort.lean ====
section
/-! DEFINITION. The host's actions and the step of the whole machine (spec/70_reset_and_hazards.md
R350; spec/30_encoding.md R115, R118), and the two pseudo-instructions as scripts
(spec/46_control.md R286, R287). -/

namespace Sys2Proof.Machine

/-- The word offered is an illegal one (46_control.md R283 lines 1 to 3, 60_exceptions.md R306, R311). -/
def illegalWord (s : State) : Result :=
  match s.acceptance none with
  | .notTaken => .next s
  | .ignored => .next s
  | .raised e => .next (s.raise e)
  | .runs _ => .next s

/-- The host offers a command word and waits until the core is ready again (30_encoding.md R115). -/
def issueWord (w : Byte) (s : State) : Result :=
  match decodeWord w with
  | some i => exec i s
  | none => illegalWord s

/-- The host offers a command word and does not wait: it is handled by the first matching line of
46_control.md R283, and at line 7 the command is left at its start. -/
def offerWord (w : Byte) (s : State) : State :=
  match s.acceptance (decodeWord w) with
  | .notTaken => s
  | .ignored => s
  | .raised e => s.raise e
  | .runs i => s.begin i

/-- `AttachSource(S)`: `ISTR <- S`, `SRC_OK <- 1` (10_state.md R55). -/
def State.attachSource (s : State) (bytes : List Byte) : State :=
  { s with istr := bytes, srcOk := true }

/-- `DetachSource`: `ISTR <- []`, `SRC_OK <- 0` (10_state.md R55). -/
def State.detachSource (s : State) : State :=
  { s with istr := [], srcOk := false }

/-- `AttachDest`: `OSTR <- []`, `DST_OK <- 1` (10_state.md R56). -/
def State.attachDest (s : State) : State :=
  { s with ostr := [], dstOk := true }

/-- `DetachDest`: `DST_OK <- 0`; `OSTR` is left as the finished output (10_state.md R56). -/
def State.detachDest (s : State) : State :=
  { s with dstOk := false }

/-- A stream action of the host: allowed when the core is ready, refused while it is busy
(70_reset_and_hazards.md R344, R350). -/
def whenReady (s t : State) : Result :=
  if s.busy then .refused .streamChangeWhileBusy else .next t

/-- The host stops: no later action of its script is done. -/
def State.stopScript (s : State) : State :=
  { s with script := [] }

/-- One host action, already taken off the script. -/
def hostAction (a : HostItem) (s : State) : Result :=
  match a with
  | .reset => .next s.clearCore
  | .src bytes => whenReady s (s.attachSource bytes)
  | .nosrc => whenReady s s.detachSource
  | .dst => whenReady s s.attachDest
  | .nodst => whenReady s s.detachDest
  | .cmd w => issueWord w s
  | .offer w => .next (offerWord w s)
  | .wait => tick s
  | .rd a => .next (s.readRegister a)
  | .stopIfError => if s.err = .none then .next s else .next s.stopScript

/-- One step: the host's next action. A command the host waits with stays offered while the core is
busy, and the core makes a step instead; with no host action to come the core goes on by itself. -/
def hostStep (s : State) : Result :=
  match s.script with
  | [] => tick s
  | .cmd w :: rest => if s.busy then tick s else hostAction (.cmd w) { s with script := rest }
  | a :: rest => hostAction a { s with script := rest }

/-- The state with a command word put where the machine takes its next command from: at the head of
the host's script, in a core that is as it was. -/
def State.withCommand (s : State) (w : Byte) : State :=
  { s with script := .cmd w :: s.script }

/-- The encoding of a script: the sequence of its command words, one byte each (30_encoding.md R115). -/
def scriptWords : List HostItem → List Byte
  | [] => []
  | .cmd w :: rest => w :: scriptWords rest
  | .offer w :: rest => w :: scriptWords rest
  | _ :: rest => scriptWords rest

/-- A command of a pseudo-instruction: the host stops at the first command after which
`STATUS.ERR != 0` (46_control.md R286). -/
def checked (i : Instr) : List HostItem :=
  [.cmd (opcode i), .stopIfError]

/-- The pseudo-instruction `COMPRESS <bytes>` (46_control.md R286). -/
def compressScript (bytes : List Byte) : List HostItem :=
  checked .clear ++ [.src bytes] ++ checked .analyze ++ checked .build ++ checked .gencode
    ++ [.src bytes, .dst] ++ checked .wrhdr ++ checked .encode ++ [.nodst]

/-- The pseudo-instruction `DECOMPRESS <bytes>` (46_control.md R287). -/
def decompressScript (bytes : List Byte) : List HostItem :=
  checked .clear ++ [.src bytes] ++ checked .rdhdr ++ checked .build ++ [.dst] ++ checked .decode
    ++ [.nodst]

end Sys2Proof.Machine
end

