-- ==== Sys2Proof/Machine/Step.lean ====
section
/-! DEFINITION. The step of the machine, and the state whose next step runs a given command word. -/

namespace Sys2Proof.Machine

/-- One step: `hostStep`. -/
def step (s : State) : Host.Outcome State Fault Refusal :=
  hostStep s

/-- `s` with the command word whose bits are `w` placed where `step` takes its next command from. -/
def State.withFetchWord (s : State) (nbits w : Nat) : State :=
  s.withCommand (tableWord nbits w)

end Sys2Proof.Machine
end

