-- ==== Sys2Proof/Safety.lean ====
section
/-! DEFINITION. What claims are stated in terms of: a finished run, the invariants of the core's state,
the shape of a built tree, paths and codes, and the compressed body as a function of its bits. -/

namespace Sys2Proof.Safety

open Sys2Proof.Machine

/-! ### Runs -/

/-- Commands are accepted in `PHASE` 0 and 3 alike (46_control.md R283). -/
def Accepting (s : State) : Prop :=
  s.phase = .idle ∨ s.phase = .done

/-- A run has ended when its last item has been performed and `PHASE` is 0, 3 or 4
(70_reset_and_hazards.md R351). -/
def RunEnded (s : State) : Prop :=
  s.script = [] ∧ s.busy = false

/-- A run ended successfully when `PHASE` is 0 or 3 and `ERR = 0` (70_reset_and_hazards.md R351). -/
def RunSucceeded (s : State) : Prop :=
  RunEnded s ∧ Accepting s ∧ s.err = .none

/-- A run that ends with `PHASE = 4` has failed (70_reset_and_hazards.md R351). -/
def RunFailed (s : State) : Prop :=
  RunEnded s ∧ s.phase = .error

/-! ### Reset -/

/-- Every piece of core state has its reset value (10_state.md R59). -/
def CoreAtReset (s : State) : Prop :=
  s.phase = .idle ∧ s.err = .none ∧ s.tv = false ∧ s.cv = false ∧ (∀ b, s.freqAt b = 0) ∧
    s.nnodes = 0 ∧ (∀ n, s.nodeAt n = Node.zero) ∧ s.pqlen = 0 ∧ (∀ i, s.pqWord i = 0x1FF#64) ∧
    s.root = 0 ∧ (∀ b, s.codeAt b = CodeRec.none) ∧ s.acc = 0 ∧ s.accn = 0 ∧ s.cur = 0

/-- What the host owns, and the constant `CB`, are the same in both states (70_reset_and_hazards.md
R341, 10_state.md R50, R52). -/
def SameHostSide (s t : State) : Prop :=
  t.srcOk = s.srcOk ∧ t.dstOk = s.dstOk ∧ t.istr = s.istr ∧ t.ostr = s.ostr ∧ t.cb = s.cb

/-! ### The frequency table -/

/-- The sum of all 256 counts (10_state.md R36, R37). -/
def sumCounts (f : ByteTable Count) : Nat :=
  (allSymbols.map (fun b => (f.atByte b).toNat)).sum

/-- The symbols with a non-zero count, in ascending order (42_tree_builder.md R182). -/
def present (f : ByteTable Count) : List Byte :=
  allSymbols.filter (fun b => f.atByte b != 0)

/-- `k`, the number of distinct symbols (10_state.md R39). -/
def distinct (s : State) : Nat :=
  (present s.freq).length

/-- The table that counts the bytes of a list, each count at its width of 64 bits (40_frequency.md
R142). -/
def Counts (f : ByteTable Count) (bytes : List Byte) : Prop :=
  ∀ b, (f.atByte b).toNat = bytes.count b

/-- The value of `CB` consecutive stream bytes as a count, least significant byte first
(30_encoding.md R108): `sum over j of h[at + j] * 2^(8j)`, `j < n`; a byte that is not there is 0. -/
def countValue (h : List Byte) (start n : Nat) : Nat :=
  ((List.range n).map (fun j => (h.getD (start + j) 0).toNat * 2 ^ (8 * j))).sum

/-! ### The priority order -/

/-- The order invariant of 10_state.md R43: weights ascend from the head and no index occurs twice.
(First in, first out among equal weights is where `insert` puts an entry: R161.) -/
def Ordered (s : State) : Prop :=
  s.pq.Pairwise (fun a b => (s.weight a).toNat ≤ (s.weight b).toNat) ∧ s.pq.Nodup

/-! ### The tree -/

/-- The Leaf `BUILD` makes of a symbol (42_tree_builder.md R181, R182). -/
def leafOf (f : ByteTable Count) (b : Byte) : Node :=
  { kind := .leaf, sym := b, w := (f.atByte b).setWidth 72, left := 0, right := 0 }

/-- How many edges lead to node `i`: one for each Internal node and each of its two children that is
`i` (10_state.md R39 (c)). -/
def edgesTo (s : State) (i : Nat) : Nat :=
  ((s.nodes.filter (fun r => r.kind == .internal)).map
    (fun r => (if r.left.val = i then 1 else 0) + (if r.right.val = i then 1 else 0))).sum

/-- The tree invariants of 10_state.md R39 and the numbering of 42_tree_builder.md R186. -/
structure TreeShape (s : State) : Prop where
  /-- there is a symbol -/
  some_symbol : 1 ≤ distinct s
  /-- R39 (d): `NNODES = 2k - 1` -/
  size : s.nnodes = 2 * distinct s - 1
  /-- R186: `ROOT = NNODES - 1` -/
  root_last : s.root.val = s.nnodes - 1
  /-- R39 (b), R186: the first `k` records are the Leaves, in ascending symbol order, `W = FREQ` -/
  leaves : s.nodes.take (distinct s) = (present s.freq).map (leafOf s.freq)
  /-- R186: the other records are Internal nodes -/
  internal : ∀ i < s.nnodes, distinct s ≤ i →
    (s.nodeNumbered i).kind = .internal ∧ (s.nodeNumbered i).sym = 0
  /-- R39 (c): every child index is smaller than its parent's index -/
  children : ∀ i < s.nnodes, distinct s ≤ i →
    (s.nodeNumbered i).left.val < i ∧ (s.nodeNumbered i).right.val < i
  /-- R39 (a): the weight of an Internal node is the sum of its children's weights -/
  weights : ∀ i < s.nnodes, distinct s ≤ i →
    (s.nodeNumbered i).w.toNat =
      (s.weight (s.nodeNumbered i).left).toNat + (s.weight (s.nodeNumbered i).right).toNat
  /-- R39 (c): every node but the root is the child of exactly one Internal node, the root of none -/
  one_parent : ∀ i < s.nnodes, edgesTo s i = if i = s.root.val then 0 else 1
  /-- R39 (e): `W(ROOT)` is the sum of all counts -/
  total : (s.weight s.root).toNat = sumCounts s.freq

/-- `path` leads from the root to `n`, every node before the last an Internal one (00_scope.md R14). -/
inductive PathTo (s : State) : List Bool → NodeIdx → Prop where
  | root : PathTo s [] s.root
  | edge {path : List Bool} {n : NodeIdx} (c : Bool) (h : PathTo s path n)
      (hn : s.isLeaf n = false) : PathTo s (path ++ [c]) (s.child n c)

/-- `path` leads from the root to the Leaf of symbol `b`. -/
def LeafPath (s : State) (path : List Bool) (b : Byte) : Prop :=
  ∃ n, PathTo s path n ∧ s.isLeaf n = true ∧ (s.nodeAt n).sym = b

/-! ### Derived structures and their flags -/

/-- What `BUILD` makes of a table: arena, order, root and `TV`. -/
def treePart (s : State) : List Node × List NodeIdx × NodeIdx × Bool :=
  (s.nodes, s.pq, s.root, s.tv)

/-- The arena and `ROOT` hold the tree that `BUILD` constructs from the current contents of `FREQ`
(10_state.md R34). -/
def TreeMatches (s : State) : Prop :=
  ∃ t, buildBody s = .ok t ∧ t.tv = true ∧ s.nodes = t.nodes ∧ s.root = t.root

/-- `CODE` holds the table that `GENCODE` derives from the tree (10_state.md R34). -/
def CodeMatches (s : State) : Prop :=
  ∃ t, gencodeBody s = .ok t ∧ s.code = t.code

/-- The command that stands at a position of `PHASE = 1`. -/
def commandOf : Task → Instr
  | .start i => i
  | .analyze => .analyze
  | .buildLoad _ => .build
  | .buildMerge => .build
  | .gencode _ => .gencode
  | .wrhdr _ _ => .wrhdr
  | .encode _ => .encode
  | .rdhdr _ _ _ => .rdhdr
  | .decode _ => .decode

/-- The walks still to do for the nodes of a stack, in its order. -/
def walkStack : List (NodeIdx × List Bool) → State → Except Fault State
  | [], s => .ok s
  | (n, path) :: rest, s =>
    match walk (Config.maxLen + 1 - path.length) n path s with
    | .error f => .error f
    | .ok s1 => walkStack rest s1

/-- Where the running command stands agrees with what its result will be. The positions are the model's
own (notes/assumptions/3.md). -/
def TaskMatches (s : State) : Prop :=
  match s.phase with
  | .streaming (.start i) => s.flagHolds (needs i).flag = true
  | .streaming .analyze => s.tv = false ∧ s.cv = false
  | .streaming (.rdhdr _ _ _) => s.tv = false ∧ s.cv = false
  | .streaming (.buildLoad k) =>
    s.tv = false ∧ s.cv = false ∧
      ((loadSymbols (allSymbols.drop k) s).bind buildTail).map treePart = (buildBody s).map treePart
  | .streaming .buildMerge =>
    s.tv = false ∧ s.cv = false ∧ s.pq ≠ [] ∧
      (buildTail s).map treePart = (buildBody s).map treePart
  | .streaming (.gencode stack) =>
    s.tv = true ∧ s.cv = false ∧
      (walkStack stack s).map State.code = (gencodeBody s).map State.code
  | .streaming (.wrhdr _ _) => True
  | .streaming (.encode _) => True
  | .streaming (.decode _) => True
  | .flushing _ => True
  | .idle => True
  | .done => True
  | .error => True

/-- The flags mean what 10_state.md R34 says; the last clause, on a running command, is the model's
(notes/assumptions/3.md). -/
def FlagsMean (s : State) : Prop :=
  (s.tv = true → TreeMatches s) ∧ (s.cv = true → s.tv = true ∧ CodeMatches s) ∧ TaskMatches s

/-! ### The invariant of the core's registers and memories -/

/-- `ERR != 0` exactly when `PHASE = 4` (10_state.md R33). -/
def ErrMatches (s : State) : Prop :=
  s.err ≠ .none ↔ s.phase = .error

/-- Every count has `8*CB` bits (10_state.md R35). -/
def CountsFit (s : State) : Prop :=
  ∀ b, (s.freqAt b).toNat ≤ countMax s.cb

/-- The bits of `ACC` below position `8 - ACCN` are 0 (10_state.md R48). -/
def AccClean (s : State) : Prop :=
  ∀ k < 8 - s.accn.val, s.acc.getLsbD k = false

/-- A code record: an invalid one is all zero, and bits `LEN` and above of `BITS` are 0
(10_state.md R45). -/
def CodeRecOk (r : CodeRec) : Prop :=
  (r.valid = false → r = CodeRec.none) ∧ r.bits.toNat < 2 ^ r.len.toNat

/-- The part of a count that `RDHDR` has assembled from `j` bytes has `8*j` bits, `j < CB`
(45_decoder.md R251). -/
def PartFits (s : State) : Prop :=
  match s.phase with
  | .streaming (.rdhdr _ j v) => j < countBytes s.cb ∧ v.toNat < 2 ^ (8 * j)
  | _ => True

/-- The invariant of the core: phases and faults agree, every register and record has the form its
rule gives it, the arena and the order are within their capacity, a detached source is empty, and a
valid code table has a valid tree. -/
structure Inv (s : State) : Prop where
  err : ErrMatches s
  counts : CountsFit s
  part : PartFits s
  arena : s.nnodes ≤ 511
  order : s.pqlen ≤ 256
  acc : AccClean s
  code : ∀ b, CodeRecOk (s.codeAt b)
  source : s.srcOk = false → s.istr = []
  flags : s.cv = true → s.tv = true
  task : match s.phase with
    | .streaming (.start i) => s.flagHolds (needs i).flag = true
    | .streaming .analyze => s.tv = false ∧ s.cv = false
    | .streaming (.rdhdr _ _ _) => s.tv = false ∧ s.cv = false
    | .streaming (.buildLoad _) => s.tv = false ∧ s.cv = false
    | .streaming .buildMerge => s.tv = false ∧ s.cv = false
    | .streaming (.gencode _) => s.tv = true ∧ s.cv = false
    | _ => True

/-! ### The compressed body -/

/-- Byte `i` of a bit sequence padded with zeros: bit `7 - k` is bit `8i + k` (30_encoding.md R109). -/
def byteOfBits (bits : List Bool) (i : Nat) : Byte :=
  BitVec.ofNat 8 (pathNumber ((List.range 8).map (fun k => bits.getD (8 * i + k) false)))

/-- The full bytes of a bit sequence. -/
def fullBytes (bits : List Bool) : List Byte :=
  (List.range (bits.length / 8)).map (byteOfBits bits)

/-- The body of a bit sequence: `ceil(T/8)` bytes, zero-padded in the last (30_encoding.md R109). -/
def bodyBytes (bits : List Bool) : List Byte :=
  (List.range ((bits.length + 7) / 8)).map (byteOfBits bits)

/-- The pad count `p = (8 - T mod 8) mod 8` (30_encoding.md R109). -/
def padCount (bits : List Bool) : Nat :=
  (8 - bits.length % 8) % 8

/-- The code bits of a byte sequence, in encounter order (30_encoding.md R109). -/
def codedBits (s : State) (bytes : List Byte) : List Bool :=
  bytes.flatMap (fun b => codeBits (s.codeAt b))

/-- The bits of a body, most significant first within each byte (45_decoder.md R260). -/
def bodyBits (bytes : List Byte) : List Bool :=
  bytes.flatMap byteBits

/-- `dec(bits, n)`: the symbols the walk from `n` writes (45_decoder.md R260). -/
def dec (s : State) : List Bool → NodeIdx → List Byte
  | [], _ => []
  | c :: rest, n =>
    if s.isLeaf (s.child n c) then (s.nodeAt (s.child n c)).sym :: dec s rest s.root
    else dec s rest (s.child n c)

/-- The node the walk from `n` stops at (45_decoder.md R259). -/
def decEnd (s : State) : List Bool → NodeIdx → NodeIdx
  | [], n => n
  | c :: rest, n =>
    if s.isLeaf (s.child n c) then decEnd s rest s.root else decEnd s rest (s.child n c)

end Sys2Proof.Safety
end

