-- ==== Sys2Proof/Certificates/Slice0/Obligations.lean ====
section
/-! DEFINITION. The statements for the provers: what the rules of spec/ say the commands, the
micro-operations, the register map, the host's actions and the whole machine do. -/

open Sys2Proof Sys2Proof.Machine Sys2Proof.Safety

/-! ### Encoding -/

/-- 30_encoding.md R101: the eight words of the opcode map, written out. -/
def Obligations.OpcodeMapWords : Prop :=
  decode [0b00000001#8] = .ok (.clear, []) ∧ decode [0b00000010#8] = .ok (.analyze, []) ∧
    decode [0b00000011#8] = .ok (.build, []) ∧ decode [0b00000100#8] = .ok (.gencode, []) ∧
    decode [0b00000101#8] = .ok (.wrhdr, []) ∧ decode [0b00000110#8] = .ok (.encode, []) ∧
    decode [0b00000111#8] = .ok (.rdhdr, []) ∧ decode [0b00001000#8] = .ok (.decode, [])

/-- 30_encoding.md R100, R101: decoding an encoded command gives it back with the words after it, and
a word that decodes to a command is that command's encoding. -/
def Obligations.DecodeAndEncodeAgree : Prop :=
  (∀ (i : Instr) (rest : List Byte), i.wellFormed = true → decode (encode i ++ rest) = .ok (i, rest)) ∧
    (∀ (w : Byte) (rest after : List Byte) (i : Instr), decode (w :: rest) = .ok (i, after) →
      encode i = [w] ∧ after = rest)

/-- 30_encoding.md R103: a word decodes exactly when its opcode is one of `0x01 .. 0x08`; each of the
other 248 is rejected by name. -/
def Obligations.IllegalWordsRejected : Prop :=
  (∀ w : Byte, (∃ i, decodeWord w = some i) ↔ (1 ≤ w.toNat ∧ w.toNat ≤ 8)) ∧
    (∀ (w : Byte) (rest : List Byte), w.toNat = 0 ∨ 9 ≤ w.toNat →
      decode (w :: rest) = .error (.illegalWord w)) ∧
    (allSymbols.filter (fun w => !legalWord w)).length = 248

/-! ### Reset -/

/-- 10_state.md R59: after reset, asserted in any phase, and after `CLEAR`, every piece of core state
has its reset value; the host's side and the constant `CB` are not changed; at power-up no stream is
attached and both are empty. -/
def Obligations.ResetAndClearLeaveCoreAtReset : Prop :=
  (CoreAtReset State.reset ∧ State.reset.srcOk = false ∧ State.reset.dstOk = false ∧
      State.reset.istr = [] ∧ State.reset.ostr = [] ∧ countBytes State.reset.cb = 8) ∧
    (∀ (s : State) (rest : List HostItem), s.script = .reset :: rest →
      ∃ t, step s = .next t ∧ CoreAtReset t ∧ SameHostSide s t ∧ t.script = rest) ∧
    (∀ s : State, s.busy = false →
      ∃ t, exec .clear s = .next t ∧ CoreAtReset t ∧ SameHostSide s t ∧ t.script = s.script)

/-- 46_control.md R281: `CLEAR` runs in `PHASE` 0, 3 and 4 alike and gives exactly the reset core,
with the host's side and the model's own fields as they were.
The fields `script`, `readData` and `draws` are the
model's choice (notes/assumptions/4.md, 5.md, 6.md). -/
def Obligations.ClearGivesResetCore : Prop :=
  ∀ s : State, s.busy = false →
    exec .clear s = .next { State.reset with
      cb := s.cb, srcOk := s.srcOk, dstOk := s.dstOk, istr := s.istr, ostr := s.ostr,
      script := s.script, readData := s.readData, draws := s.draws }

/-- 70_reset_and_hazards.md R340: reset abandons a running command, wherever it stands. The bytes it
had consumed from `ISTR` stay consumed and the bytes it had written stay in `OSTR`.
The division of a
command into steps is the model's choice (notes/assumptions/3.md). -/
def Obligations.ResetAbandonsRunningCommand : Prop :=
  ∀ (s u : State) (n : Nat) (rest : List HostItem), s.busy = true → ticks n s = .next u →
    step { u with script := .reset :: rest } = .next { State.reset with
      cb := s.cb, srcOk := s.srcOk, dstOk := s.dstOk, istr := u.istr, ostr := u.ostr,
      script := rest, readData := s.readData, draws := s.draws } ∧
    u.istr <:+ s.istr ∧ s.ostr <+: u.ostr

/-! ### Acceptance and faults at acceptance -/

/-- 46_control.md R283 line 1, 70_reset_and_hazards.md R343: while the core is busy an offered word is
not taken and has no effect; a host that keeps it offered sees the core's own step.
The script and what
waiting means in it are the model's choice (notes/assumptions/4.md, 14.md). -/
def Obligations.BusyCoreTakesNoWord : Prop :=
  ∀ s : State, s.busy = true →
    (∀ i, exec i s = .next s) ∧ (∀ w, offerWord w s = s) ∧ (∀ w, issueWord w s = .next s) ∧
      (∀ w rest, s.script = .cmd w :: rest → step s = tick s)

/-- 60_exceptions.md R311: in `PHASE = 4` every word but `CLEAR` is taken and ignored, an illegal one
too, and register reads return the state left by the fault. -/
def Obligations.ErrorPhaseIgnoresAllButClear : Prop :=
  ∀ s : State, s.phase = .error →
    (∀ i, i ≠ .clear → exec i s = .next s) ∧
      (∀ w : Byte, w ≠ 0x01 → issueWord w s = .next s ∧ offerWord w s = s) ∧
      (∀ a, s.readRegister a = { s with readData := s.register a })

/-- 60_exceptions.md R306: `IllegalCommand` at acceptance, in `PHASE` 0 or 3, of a word `0x00` or
`0x09 .. 0xFF`; no other state changes. -/
def Obligations.IllegalWordRaisesIllegalCommand : Prop :=
  ∀ (s : State) (w : Byte), Accepting s → w.toNat = 0 ∨ 9 ≤ w.toNat →
    issueWord w s = .next { s with err := .illegalCommand, phase := .error } ∧
      offerWord w s = { s with err := .illegalCommand, phase := .error }

/-- 60_exceptions.md R307: `SequenceError` at acceptance of `GENCODE` or `DECODE` when `TV = 0`, and of
`ENCODE` when `CV = 0`; no other state changes; no other command raises it at acceptance. -/
def Obligations.MissingFlagRaisesSequenceError : Prop :=
  ∀ s : State, Accepting s →
    (s.tv = false → exec .gencode s = .next { s with err := .sequenceError, phase := .error } ∧
      exec .decode s = .next { s with err := .sequenceError, phase := .error }) ∧
    (s.cv = false → exec .encode s = .next { s with err := .sequenceError, phase := .error }) ∧
    (∀ i, s.acceptance (some i) = .raised .sequenceError →
      ((i = .gencode ∨ i = .decode) ∧ s.tv = false) ∨ (i = .encode ∧ s.cv = false))

/-- 60_exceptions.md R304: `SourceOpenFailure` at acceptance of `ANALYZE`, `ENCODE`, `RDHDR`, `DECODE`
with `SRC_OK = 0`, after the flag check and before the destination check; no other state changes; an
attached source, empty or not, is not this fault. -/
def Obligations.DetachedSourceRaisesSourceOpenFailure : Prop :=
  ∀ (s : State) (i : Instr), Accepting s →
    (s.srcOk = false → s.flagHolds (needs i).flag = true →
      i = .analyze ∨ i = .encode ∨ i = .rdhdr ∨ i = .decode →
      exec i s = .next { s with err := .sourceOpenFailure, phase := .error }) ∧
    (s.acceptance (some i) = .raised .sourceOpenFailure →
      s.srcOk = false ∧ s.flagHolds (needs i).flag = true ∧
        (i = .analyze ∨ i = .encode ∨ i = .rdhdr ∨ i = .decode))

/-- 60_exceptions.md R305: `DestinationOpenFailure` at acceptance of `WRHDR`, `ENCODE` or `DECODE` with
`DST_OK = 0` when the flag and the source checks passed; no other state changes, so nothing has been
read from `ISTR`. -/
def Obligations.DetachedDestRaisesDestinationOpenFailure : Prop :=
  ∀ (s : State) (i : Instr), Accepting s →
    (s.dstOk = false → s.flagHolds (needs i).flag = true → ((needs i).source = true → s.srcOk = true) →
      i = .wrhdr ∨ i = .encode ∨ i = .decode →
      exec i s = .next { s with err := .destinationOpenFailure, phase := .error }) ∧
    (s.acceptance (some i) = .raised .destinationOpenFailure →
      s.dstOk = false ∧ s.flagHolds (needs i).flag = true ∧
        ((needs i).source = true → s.srcOk = true) ∧ (i = .wrhdr ∨ i = .encode ∨ i = .decode))

/-! ### Completion -/

/-- 46_control.md R284: an accepted command that answers a next state has reached its last line
(`PHASE = 3`, for `CLEAR` `PHASE = 0`, and `ERR` as it was, for `CLEAR` 0) or has executed a `raise`
(`PHASE = 4`, `ERR` not 0). -/
def Obligations.AcceptedCommandsEndReady : Prop :=
  ∀ (i : Instr) (s t : State), s.acceptance (some i) = .runs i → exec i s = .next t →
    (i = .clear ∧ t.phase = .idle ∧ t.err = .none) ∨
      (i ≠ .clear ∧ t.phase = .done ∧ t.err = s.err) ∨
      (i ≠ .clear ∧ t.phase = .error ∧ t.err ≠ .none)

/-- 70_reset_and_hazards.md R356: every command terminates on every state and every finite stream. For
`GENCODE` the state holds a tree (10_state.md R39), as it does whenever `TV = 1`. -/
def Obligations.EveryCommandTerminates : Prop :=
  ∀ (i : Instr) (s : State), (i = .gencode → s.tv = true → TreeShape s) → ∃ t, exec i s = .next t

/-! ### The frequency analyzer -/

/-- 40_frequency.md R142: one step adds one to one count; `ANALYZE` of a stream whose counts fit
completes with `FREQ[s]` the number of occurrences of `s`, `ISTR` consumed, both flags cleared, and
everything else as it was. -/
def Obligations.AnalyzeCountsEveryByte : Prop :=
  (∀ (b : Byte) (s : State), (s.freqAt b).toNat < countMax s.cb →
    ∃ t, analyzeByte b s = (none, t) ∧ (t.freqAt b).toNat = (s.freqAt b).toNat + 1 ∧
      ∀ c, c ≠ b → t.freqAt c = s.freqAt c) ∧
    (∀ s : State, Accepting s → s.srcOk = true → (∀ b, s.istr.count b ≤ countMax s.cb) →
      ∃ t, exec .analyze s = .next t ∧ Counts t.freq s.istr ∧
        t = { s with phase := .done, tv := false, cv := false, istr := [], freq := t.freq })

/-- 40_frequency.md R143: a byte that arrives when its count is `CMAX` raises `CountOverflow`: the byte
has been removed, its count stays `CMAX`, every other count keeps its value. -/
def Obligations.AnalyzeOverflowStops : Prop :=
  ∀ (s : State) (seen : List Byte) (b : Byte) (rest : List Byte), Accepting s → s.srcOk = true →
    s.istr = seen ++ b :: rest → (∀ c, seen.count c ≤ countMax s.cb) → seen.count b = countMax s.cb →
    ∃ t, exec .analyze s = .next t ∧ Counts t.freq seen ∧
      t = { s with phase := .error, err := .countOverflow, tv := false, cv := false, istr := rest,
                   freq := t.freq }

/-- 40_frequency.md R144: after `ANALYZE` without fault the counts sum to the length of the stream. -/
def Obligations.AnalyzeConservesLength : Prop :=
  ∀ s t : State, Accepting s → s.srcOk = true → exec .analyze s = .next t → t.phase = .done →
    sumCounts t.freq = s.istr.length

/-- 10_state.md R36: the sum of all counts is at most `256 * (2^(8*CB) - 1)`, which is below `2^WB`. -/
def Obligations.WeightSumFits : Prop :=
  (∀ s : State, CountsFit s →
    sumCounts s.freq ≤ 256 * (2 ^ (8 * countBytes s.cb) - 1) ∧
      256 * (2 ^ (8 * countBytes s.cb) - 1) < 2 ^ (8 * countBytes s.cb + 8) ∧
      weightBits s.cb = 8 * countBytes s.cb + 8) ∧
    weightBits Config.defaultCB = 72

/-! ### The arena and the priority order -/

/-- 10_state.md R41: `leaf` and `internal` append one record at index `NNODES`, return that index and
change no other record. -/
def Obligations.AllocationAppendsOneRecord : Prop :=
  ∀ s : State, s.nnodes < 511 →
    (∀ (b : Byte) (w : Weight), ∃ (n : NodeIdx) (t : State), s.leaf b w = .ok (n, t) ∧
      n.val = s.nnodes ∧ t.nodeAt n = { kind := .leaf, sym := b, w := w, left := 0, right := 0 } ∧
      t.nnodes = s.nnodes + 1 ∧ (∀ m, m ≠ n → t.nodeAt m = s.nodeAt m) ∧
      t = { s with nodes := t.nodes }) ∧
    (∀ (w : Weight) (l r : NodeIdx), ∃ (n : NodeIdx) (t : State), s.internal w l r = .ok (n, t) ∧
      n.val = s.nnodes ∧ t.nodeAt n = { kind := .internal, sym := 0, w := w, left := l, right := r } ∧
      t.nnodes = s.nnodes + 1 ∧ (∀ m, m ≠ n → t.nodeAt m = s.nodeAt m) ∧
      t = { s with nodes := t.nodes })

/-- 41_priority_order.md R161: `insert(n)` puts `n` after all entries of weight `<= W(n)` and before
the first of strictly greater weight, and changes nothing else. -/
def Obligations.InsertPlacesByWeight : Prop :=
  ∀ (s : State) (n : NodeIdx), s.pqlen < 256 → Ordered s → n ∉ s.pq →
    ∃ before after, s.pq = before ++ after ∧
      (∀ m ∈ before, (s.weight m).toNat ≤ (s.weight n).toNat) ∧
      (∀ m ∈ after, (s.weight n).toNat < (s.weight m).toNat) ∧
      s.insert n = .ok { s with pq := before ++ n :: after }

/-- 41_priority_order.md R164: the order invariant of 10_state.md R43 survives every micro-operation;
entries already in the order keep their relative order, and among equal weights a new entry comes
last. -/
def Obligations.PriorityOrderKept : Prop :=
  (∀ (s t : State) (n : NodeIdx), Ordered s → n ∉ s.pq → s.insert n = .ok t →
    Ordered t ∧ s.pq.Sublist t.pq ∧ t.pqlen = s.pqlen + 1 ∧
      ∃ before after, t.pq = before ++ n :: after ∧ ∀ m ∈ after, (s.weight m).toNat ≠ (s.weight n).toNat) ∧
    (∀ s : State, Ordered s → Ordered s.takeMinimum.2 ∧ s.takeMinimum.2.pq = s.pq.tail)

/-- 41_priority_order.md R162, R163: `take_minimum()` returns the head, an entry of least weight, and
removes only it; on an empty order it returns `none` and changes nothing. `peek_minimum()` returns
`PQ[0]`, or `none` on an empty order, which is what `take_minimum()` would return; it writes no state. -/
def Obligations.MinimumIsTheHead : Prop :=
  (∀ s : State, s.pq = [] → s.takeMinimum = (none, s)) ∧
    (∀ (s : State) (n : NodeIdx) (rest : List NodeIdx), s.pq = n :: rest →
      s.takeMinimum = (some n, { s with pq := rest }) ∧
        (Ordered s → ∀ m ∈ s.pq, (s.weight n).toNat ≤ (s.weight m).toNat)) ∧
    (∀ s : State, (s.pqlen = 0 → s.peekMinimum = none) ∧
      (∀ h : 0 < s.pq.length, s.peekMinimum = some (s.pq[0]'h)) ∧
      s.peekMinimum = s.takeMinimum.1)

/-! ### The tree builder -/

/-- 42_tree_builder.md R183: with every count 0, `BUILD` raises `EmptyOrUnreadableInput` with an empty
arena and order; `FREQ` and everything else is unchanged. -/
def Obligations.BuildOnEmptyTableRaises : Prop :=
  ∀ s : State, Accepting s → (∀ b, s.freqAt b = 0) →
    exec .build s = .next { s with phase := .error, err := .emptyOrUnreadableInput, tv := false,
                                   cv := false, nodes := [], pq := [], root := 0 }

/-- 42_tree_builder.md R188: with one symbol the load creates its Leaf, the loop does not run and
`ROOT` is 0. -/
def Obligations.BuildOneSymbolGivesLeafRoot : Prop :=
  ∀ (s : State) (b : Byte), Accepting s → s.freqAt b ≠ 0 → (∀ c, c ≠ b → s.freqAt c = 0) →
    exec .build s = .next { s with phase := .done, tv := true, cv := false, pq := [], root := 0,
                                   nodes := [leafOf s.freq b] }

/-- 42_tree_builder.md R184: one merge takes the two least entries, first taken left, and inserts their
parent, whose weight is their sum, after every entry whose weight is not greater. -/
def Obligations.MergeJoinsTwoLeast : Prop :=
  ∀ (s : State) (a b : NodeIdx) (rest : List NodeIdx), s.pq = a :: b :: rest → Ordered s →
    (∀ m ∈ s.pq, m.val < s.nnodes) → s.nnodes < 511 → s.pqlen ≤ 256 →
    (s.weight a).toNat + (s.weight b).toNat < 2 ^ 72 →
    ∃ (t : State) (m : NodeIdx) (before after : List NodeIdx), mergeOnce s = .ok t ∧
      m.val = s.nnodes ∧ (t.weight m).toNat = (s.weight a).toNat + (s.weight b).toNat ∧
      t.nodes = s.nodes ++ [{ kind := .internal, sym := 0, w := t.weight m, left := a, right := b }] ∧
      rest = before ++ after ∧ t.pq = before ++ m :: after ∧ t.pqlen + 1 = s.pqlen ∧
      (∀ x ∈ before, (s.weight x).toNat ≤ (t.weight m).toNat) ∧
      (∀ x ∈ after, (t.weight m).toNat < (s.weight x).toNat) ∧ Ordered t ∧
      t = { s with nodes := t.nodes, pq := t.pq }

/-- 42_tree_builder.md R186, with the tree invariants of 10_state.md R39: with at least one symbol
`BUILD` completes, and what it leaves is a tree of that shape; nothing but the arena, the order,
`ROOT`, the flags and `PHASE` changes. -/
def Obligations.BuildCompletesWithTree : Prop :=
  ∀ s : State, Accepting s → 1 ≤ distinct s →
    ∃ t, exec .build s = .next t ∧ TreeShape t ∧ t.nnodes ≤ 511 ∧
      t = { s with phase := .done, tv := true, cv := false, pq := [], nodes := t.nodes, root := t.root }

/-- 42_tree_builder.md R187, 43_code_table.md R207: `BUILD` is a function of `FREQ` alone, and
`GENCODE` of the tree alone. -/
def Obligations.DerivedStructuresAreFunctions : Prop :=
  (∀ s u t : State, Accepting s → Accepting u → s.freq = u.freq → exec .build s = .next t →
    ∃ v, exec .build u = .next v ∧ treePart v = treePart t ∧ v.phase = t.phase) ∧
  (∀ s u t : State, Accepting s → Accepting u → s.tv = true → u.tv = true → s.nodes = u.nodes →
    s.root = u.root → exec .gencode s = .next t →
    ∃ v, exec .gencode u = .next v ∧ v.code = t.code ∧ v.cv = t.cv)

/-! ### The code table generator -/

/-- 43_code_table.md R201, R202: on a tree `GENCODE` completes; the code of a Leaf's symbol is the path
to it, its length the Leaf's depth; exactly the symbols with a count have a valid record, and the
others an all-zero one. -/
def Obligations.GencodeAssignsPaths : Prop :=
  ∀ s : State, Accepting s → s.tv = true → TreeShape s →
    ∃ t, exec .gencode s = .next t ∧
      t = { s with phase := .done, cv := true, code := t.code } ∧
      (∀ path b, LeafPath s path b → t.codeAt b = codeOfPath path ∧ codeBits (t.codeAt b) = path ∧
        (t.codeAt b).len.toNat = path.length) ∧
      (∀ b, ((t.codeAt b).valid = true ↔ s.freqAt b ≠ 0) ∧
        ((t.codeAt b).valid = true ↔ ∃ path, LeafPath s path b) ∧
        ((t.codeAt b).valid = false → t.codeAt b = CodeRec.none))

/-- 43_code_table.md R203: a Leaf root gives its symbol the empty code, a valid record of length 0. -/
def Obligations.GencodeOnLeafRootGivesEmptyCode : Prop :=
  ∀ s : State, Accepting s → s.tv = true → s.isLeaf s.root = true →
    ∃ t, exec .gencode s = .next t ∧
      t = { s with phase := .done, cv := true, code := t.code } ∧
      t.codeAt (s.nodeAt s.root).sym = { valid := true, len := 0, bits := 0 } ∧
      ∀ b, b ≠ (s.nodeAt s.root).sym → t.codeAt b = CodeRec.none

/-- 43_code_table.md R205: no code of a generated table is a prefix of another; for `k >= 2` every code
has `LEN >= 1`, for `k = 1` the single code is empty. -/
def Obligations.CodesArePrefixFree : Prop :=
  ∀ s t : State, Accepting s → s.tv = true → TreeShape s → exec .gencode s = .next t →
    (∀ a b, a ≠ b → (t.codeAt a).valid = true → (t.codeAt b).valid = true →
      ¬ codeBits (t.codeAt a) <+: codeBits (t.codeAt b)) ∧
    (2 ≤ distinct s → ∀ b, (t.codeAt b).valid = true → 1 ≤ (t.codeAt b).len.toNat) ∧
    (distinct s = 1 → ∀ b, (t.codeAt b).valid = true → codeBits (t.codeAt b) = [])

/-- 43_code_table.md R206: `1 <= LEN <= k - 1` for `k >= 2`, `LEN = 0` for `k = 1`, and for `k >= 2` the
sum over the valid symbols of `2^(-LEN)` is 1 (stated times `2^255`). -/
def Obligations.CodeLengthsMeetKraft : Prop :=
  ∀ s t : State, Accepting s → s.tv = true → TreeShape s → exec .gencode s = .next t →
    (2 ≤ distinct s → ∀ b, (t.codeAt b).valid = true →
      1 ≤ (t.codeAt b).len.toNat ∧ (t.codeAt b).len.toNat ≤ distinct s - 1) ∧
    (distinct s = 1 → ∀ b, (t.codeAt b).valid = true → (t.codeAt b).len.toNat = 0) ∧
    (2 ≤ distinct s →
      (allSymbols.map (fun b =>
        if (t.codeAt b).valid then 2 ^ (255 - (t.codeAt b).len.toNat) else 0)).sum = 2 ^ 255)

/-! ### The encoder -/

/-- 44_encoder.md R221: `WRHDR` appends exactly `HDRLEN` bytes, byte `s*CB + j` being
`FREQ[s][8j+7 : 8j]`, and changes no core state except `PHASE`. -/
def Obligations.WrhdrAppendsHeader : Prop :=
  ∀ s : State, Accepting s → s.dstOk = true →
    ∃ h : List Byte, exec .wrhdr s = .next { s with phase := .done, ostr := s.ostr ++ h } ∧
      h.length = headerLen s.cb ∧
      ∀ (b : Byte) (j : Nat), j < countBytes s.cb →
        h[b.toNat * countBytes s.cb + j]? = some (countByte (s.freqAt b) j)

/-- 44_encoder.md R222: the header `WRHDR` appends, fed to `RDHDR`, restores the same `FREQ` and leaves
the bytes after it for `DECODE`. -/
def Obligations.HeaderRoundTrip : Prop :=
  ∀ s : State, Accepting s → s.dstOk = true → CountsFit s →
    ∃ h : List Byte, h.length = headerLen s.cb ∧
      (∀ (b : Byte) (j : Nat), j < countBytes s.cb →
        h[b.toNat * countBytes s.cb + j]? = some (countByte (s.freqAt b) j)) ∧
      exec .wrhdr s = .next { s with phase := .done, ostr := s.ostr ++ h } ∧
      ∀ (u : State) (body : List Byte), Accepting u → u.cb = s.cb → u.srcOk = true →
        u.istr = h ++ body →
        exec .rdhdr u = .next { u with phase := .done, tv := false, cv := false, freq := s.freq,
                                       istr := body }

/-- 44_encoder.md R225: `putbit(c)` places `c` at position `7 - ACCN`; the eighth bit writes the byte
and clears the accumulator; the bits of `ACC` below position `8 - ACCN` stay 0. -/
def Obligations.PutbitFillsFromTheTop : Prop :=
  ∀ (s : State) (c : Bool), AccClean s →
    AccClean (s.putbit c) ∧
    (s.accn.val < 7 → ∃ v : Byte, s.putbit c = { s with acc := v, accn := (s.putbit c).accn } ∧
      (s.putbit c).accn.val = s.accn.val + 1 ∧ v.getLsbD (7 - s.accn.val) = c ∧
      ∀ k, k ≠ 7 - s.accn.val → v.getLsbD k = s.acc.getLsbD k) ∧
    (s.accn.val = 7 → ∃ v : Byte,
      s.putbit c = { s with acc := 0, accn := 0, ostr := s.ostr ++ [v] } ∧ v.getLsbD 0 = c ∧
      ∀ k, k ≠ 0 → v.getLsbD k = s.acc.getLsbD k)

/-- 44_encoder.md R226: one byte of `ENCODE` appends `LEN` bits, which write
`floor((ACCN + LEN) / 8)` bytes and leave `ACCN = (ACCN + LEN) mod 8`. -/
def Obligations.EncodeByteAdvancesByLength : Prop :=
  ∀ (s : State) (b : Byte), (s.codeAt b).valid = true →
    ∃ t, encodeByte b s = (none, t) ∧
      t.ostr.length = s.ostr.length + (s.accn.val + (s.codeAt b).len.toNat) / 8 ∧
      t.accn.val = (s.accn.val + (s.codeAt b).len.toNat) % 8 ∧ s.ostr <+: t.ostr ∧
      t = { s with acc := t.acc, accn := t.accn, ostr := t.ostr }

/-- 44_encoder.md R230: if every byte of the source has a valid code, `ENCODE` appends the body of
30_encoding.md R109, consumes `ISTR` and leaves the accumulator empty. -/
def Obligations.EncodeAppendsBody : Prop :=
  ∀ s : State, Accepting s → s.cv = true → s.srcOk = true → s.dstOk = true →
    (∀ b ∈ s.istr, (s.codeAt b).valid = true) →
    exec .encode s = .next { s with
      phase := .done, istr := [], acc := 0, accn := 0,
      ostr := s.ostr ++ bodyBytes (codedBits s s.istr) } ∧
    (bodyBytes (codedBits s s.istr)).length =
      ((s.istr.map (fun b => (s.codeAt b).len.toNat)).sum + 7) / 8

/-- 44_encoder.md R228: when every code is empty `ENCODE` writes no byte at all, whatever the source
length. -/
def Obligations.EncodeEmptyCodesWritesNothing : Prop :=
  ∀ s : State, Accepting s → s.cv = true → s.srcOk = true → s.dstOk = true →
    (∀ b ∈ s.istr, (s.codeAt b).valid = true ∧ (s.codeAt b).len = 0) →
    exec .encode s = .next { s with phase := .done, istr := [], acc := 0, accn := 0 }

/-- 44_encoder.md R229: a byte without a code raises `NoCodeForSymbol`: the byte has been removed, bytes
already written stay, `ACC` and `ACCN` keep the bits of the preceding codes, and no flush is done. -/
def Obligations.EncodeStopsAtByteWithoutCode : Prop :=
  ∀ (s : State) (seen : List Byte) (b : Byte) (rest : List Byte), Accepting s → s.cv = true →
    s.srcOk = true → s.dstOk = true → s.istr = seen ++ b :: rest →
    (∀ c ∈ seen, (s.codeAt c).valid = true) → (s.codeAt b).valid = false →
    ∃ t, exec .encode s = .next t ∧ t.accn.val = (codedBits s seen).length % 8 ∧
      t = { s with
        phase := .error, err := .noCodeForSymbol, istr := rest, accn := t.accn,
        acc := byteOfBits (codedBits s seen) ((codedBits s seen).length / 8),
        ostr := s.ostr ++ fullBytes (codedBits s seen) }

/-! ### The decoder -/

/-- 30_encoding.md R108, 45_decoder.md R253: with at least `HDRLEN` bytes `RDHDR` completes, every count
is the little-endian value of its `CB` bytes, and the bytes after the header stay in `ISTR`. -/
def Obligations.RdhdrReadsCounts : Prop :=
  ∀ s : State, Accepting s → s.srcOk = true → headerLen s.cb ≤ s.istr.length →
    ∃ t, exec .rdhdr s = .next t ∧
      (∀ b : Byte, (t.freqAt b).toNat =
        countValue s.istr (b.toNat * countBytes s.cb) (countBytes s.cb)) ∧
      t = { s with phase := .done, tv := false, cv := false, freq := t.freq,
                   istr := s.istr.drop (headerLen s.cb) }

/-- 45_decoder.md R252: a short header raises `MalformedStream`: all of `ISTR` is consumed, every count
whose bytes all arrived holds its value, all other counts are 0, and both flags are 0. -/
def Obligations.RdhdrShortHeaderRaises : Prop :=
  ∀ s : State, Accepting s → s.srcOk = true → s.istr.length < headerLen s.cb →
    ∃ t, exec .rdhdr s = .next t ∧
      (∀ b : Byte, (t.freqAt b).toNat =
        if (b.toNat + 1) * countBytes s.cb ≤ s.istr.length then
          countValue s.istr (b.toNat * countBytes s.cb) (countBytes s.cb)
        else 0) ∧
      t = { s with phase := .error, err := .malformedStream, tv := false, cv := false, istr := [],
                   freq := t.freq }

/-- 45_decoder.md R260, with the cursor of R259: with an Internal root `DECODE` appends
`dec(bits(ISTR), ROOT)`, consumes `ISTR` to its end and leaves the cursor where the walk stopped. -/
def Obligations.DecodeWalksEveryBit : Prop :=
  ∀ s : State, Accepting s → s.tv = true → s.srcOk = true → s.dstOk = true →
    s.isLeaf s.root = false →
    exec .decode s = .next { s with
      phase := .done, istr := [], cur := decEnd s (bodyBits s.istr) s.root,
      ostr := s.ostr ++ dec s (bodyBits s.istr) s.root }

/-- 45_decoder.md R258: with a Leaf root an empty body writes nothing and completes with `CUR = ROOT`;
a body that is not empty raises `MalformedStream`, nothing consumed or written. -/
def Obligations.DecodeOnLeafRoot : Prop :=
  ∀ s : State, Accepting s → s.tv = true → s.srcOk = true → s.dstOk = true →
    s.isLeaf s.root = true →
    (s.istr = [] → exec .decode s = .next { s with phase := .done, cur := s.root }) ∧
    (s.istr ≠ [] → exec .decode s = .next { s with phase := .error, err := .malformedStream,
                                                   cur := s.root })

/-- 45_decoder.md R261, R262: for a tree of at least two symbols and the code table derived from it,
`DECODE` of the body `ENCODE` wrote for `x` gives `x` followed by `floor(p / d0)` copies of `s0`, where
`p` is the pad count, `d0` the depth of the Leaf whose code is all zeros and `s0` its symbol. -/
def Obligations.DecodeOfEncodedBody : Prop :=
  ∀ s : State, Accepting s → s.tv = true → s.cv = true → s.srcOk = true → s.dstOk = true →
    TreeShape s → CodeMatches s → 2 ≤ distinct s → (∀ b ∈ s.istr, s.freqAt b ≠ 0) →
    ∃ (body : List Byte) (t : State), exec .encode s = .next t ∧ t.ostr = s.ostr ++ body ∧
      ∃ (u : State) (d0 : Nat) (s0 : Byte), exec .decode (t.attachSource body).attachDest = .next u ∧
        u.phase = .done ∧ 1 ≤ d0 ∧ LeafPath s (List.replicate d0 false) s0 ∧
        u.ostr = s.istr ++ List.replicate (padCount (codedBits s s.istr) / d0) s0

/-! ### Frames -/

/-- 40_frequency.md R141, 45_decoder.md R251: `ANALYZE` and `RDHDR` write `PHASE`, `FREQ`, `TV`, `CV`,
`ERR` by a `raise` only, and consume `ISTR` from its front; nothing else changes. -/
def Obligations.FrameOfCountingCommands : Prop :=
  ∀ (i : Instr) (s t : State), i = .analyze ∨ i = .rdhdr → exec i s = .next t →
    t = { s with phase := t.phase, err := t.err, tv := t.tv, cv := t.cv, freq := t.freq,
                 istr := t.istr } ∧
      (t.phase ≠ .error → t.err = s.err) ∧ t.istr <:+ s.istr

/-- 42_tree_builder.md R181, 43_code_table.md R201: `BUILD` writes `PHASE`, `NODE`, `PQ`, `ROOT`, `TV`,
`CV`, `GENCODE` writes `PHASE`, `CODE`, `CV`, each `ERR` by a `raise` only; nothing else changes. -/
def Obligations.FrameOfTreeCommands : Prop :=
  (∀ s t : State, exec .build s = .next t →
    t = { s with phase := t.phase, err := t.err, tv := t.tv, cv := t.cv, nodes := t.nodes,
                 pq := t.pq, root := t.root } ∧ (t.phase ≠ .error → t.err = s.err)) ∧
  (∀ s t : State, exec .gencode s = .next t →
    t = { s with phase := t.phase, err := t.err, cv := t.cv, code := t.code } ∧
      (t.phase ≠ .error → t.err = s.err))

/-- 44_encoder.md R221, R224, 45_decoder.md R256: `WRHDR` writes `PHASE` and appends to `OSTR`;
`ENCODE` also writes `ACC`, `ACCN` and consumes `ISTR`; `DECODE` also writes `CUR` and consumes `ISTR`;
each writes `ERR` by a `raise` only; nothing else changes. -/
def Obligations.FrameOfStreamCommands : Prop :=
  (∀ s t : State, exec .wrhdr s = .next t →
    t = { s with phase := t.phase, err := t.err, ostr := t.ostr } ∧
      (t.phase ≠ .error → t.err = s.err)) ∧
  (∀ s t : State, exec .encode s = .next t →
    t = { s with phase := t.phase, err := t.err, acc := t.acc, accn := t.accn, istr := t.istr,
                 ostr := t.ostr } ∧ (t.phase ≠ .error → t.err = s.err)) ∧
  (∀ s t : State, exec .decode s = .next t →
    t = { s with phase := t.phase, err := t.err, cur := t.cur, istr := t.istr, ostr := t.ostr } ∧
      (t.phase ≠ .error → t.err = s.err))

/-- 20_memory.md R80: a command consumes `ISTR` from its front and extends `OSTR` at its end, and so
does each step of a running command. -/
def Obligations.StreamsKeepOrder : Prop :=
  (∀ (i : Instr) (s t : State), exec i s = .next t → s.ostr <+: t.ostr ∧ t.istr <:+ s.istr) ∧
    (∀ s t : State, tick s = .next t → s.ostr <+: t.ostr ∧ t.istr <:+ s.istr)

/-! ### The register map -/

/-- 10_state.md R51: the fields of `STATUS`, readable at any time, also while the core is busy; with the
numbers of the phases (10_state.md R32) and of the fault kinds (60_exceptions.md R300). -/
def Obligations.StatusShowsControlState : Prop :=
  (∀ s : State, (s.readRegister 0x000).readData = s.statusWord ∧
    s.statusWord.extractLsb' 0 3 = phaseCode s.phase ∧
    s.statusWord.getLsbD 3 = s.tv ∧ s.statusWord.getLsbD 4 = s.cv ∧
    s.statusWord.getLsbD 5 = s.srcOk ∧ s.statusWord.getLsbD 6 = s.dstOk ∧
    s.statusWord.getLsbD 7 = false ∧ s.statusWord.extractLsb' 8 4 = errCode s.err ∧
    s.statusWord.extractLsb' 12 52 = 0) ∧
  (phaseCode .idle = 0 ∧ (∀ k, phaseCode (.streaming k) = 1) ∧ (∀ f, phaseCode (.flushing f) = 2) ∧
    phaseCode .done = 3 ∧ phaseCode .error = 4) ∧
  errCode .none = 0 ∧ errCode .sourceOpenFailure = 1 ∧ errCode .destinationOpenFailure = 2 ∧
    errCode .emptyOrUnreadableInput = 3 ∧ errCode .malformedStream = 4 ∧
    errCode .illegalCommand = 5 ∧ errCode .sequenceError = 6 ∧ errCode .noCodeForSymbol = 7 ∧
    errCode .countOverflow = 8

/-- 10_state.md R52: what each register number holds, for every state whose counts and weights have
their widths; every reserved number reads 0; with the numbers of `KIND` (10_state.md R38). -/
def Obligations.RegisterMapShowsState : Prop :=
  (kindCode .leaf = 0 ∧ kindCode .internal = 1) ∧
  ∀ s : State, CountsFit s → (∀ n, (s.weight n).toNat < 2 ^ weightBits s.cb) →
    s.nnodes ≤ 511 → s.pqlen ≤ 256 →
    (s.register 0x001).toNat = s.root.val ∧ (s.register 0x002).toNat = s.nnodes ∧
    (s.register 0x003).toNat = s.pqlen ∧ (s.register 0x004).toNat = 256 * s.accn.val + s.acc.toNat ∧
    (s.register 0x005).toNat = s.cur.val ∧
    (s.register 0x006).toNat = countBytes s.cb + 16 + 256 * weightBits s.cb ∧
    (∀ k < 256, s.register (BitVec.ofNat 12 (0x100 + k)) = s.freqAt (BitVec.ofNat 8 k)) ∧
    (∀ k < 256, (s.register (BitVec.ofNat 12 (0x200 + k))).toNat =
      ((s.pq[k]?).map Fin.val).getD 0x1FF) ∧
    (∀ n : NodeIdx, (s.register (BitVec.ofNat 12 (0x400 + 2 * n.val))) = (s.weight n).extractLsb' 0 64) ∧
    (∀ n : NodeIdx, (s.register (BitVec.ofNat 12 (0x401 + 2 * n.val))).toNat =
      (s.weight n).toNat / 2 ^ 64 + 2 ^ 8 * (s.nodeAt n).sym.toNat + 2 ^ 16 * (s.nodeAt n).left.val
        + 2 ^ 25 * (s.nodeAt n).right.val + 2 ^ 34 * (kindCode (s.nodeAt n).kind).toNat) ∧
    (∀ b : Byte, (s.register (BitVec.ofNat 12 (0x800 + 8 * b.toNat))).toNat =
      (s.codeAt b).len.toNat + 256 * (s.codeAt b).valid.toNat) ∧
    (∀ b : Byte, ∀ k < 4, s.register (BitVec.ofNat 12 (0x801 + 8 * b.toNat + k)) =
      ((s.codeAt b).bits.setWidth 256).extractLsb' (64 * k) 64) ∧
    (∀ b : Byte, ∀ k < 3, s.register (BitVec.ofNat 12 (0x805 + 8 * b.toNat + k)) = 0) ∧
    (∀ a : BitVec 12, (0x007 ≤ a.toNat ∧ a.toNat ≤ 0x0FF) ∨ (0x300 ≤ a.toNat ∧ a.toNat ≤ 0x3FF) ∨
      (0x7FE ≤ a.toNat ∧ a.toNat ≤ 0x7FF) → s.register a = 0)

/-- 46_control.md R282, 20_memory.md R82: a register read has no side effect on core, streams or
script. In a ready core it returns the register; while the core is busy any register but `STATUS`
returns a free value (for every value the free constant may have). `readData` and
the counter of free values are the model's own (notes/assumptions/5.md, 6.md). -/
def Obligations.RegisterReadHasNoSideEffect : Prop :=
  ∀ (s : State) (a : BitVec 12),
    s.readRegister a = { s with readData := (s.readRegister a).readData,
                                draws := (s.readRegister a).draws } ∧
    (s.busy = false ∨ a = 0x000 → (s.readRegister a).readData = s.register a ∧
      (s.readRegister a).draws = s.draws) ∧
    (s.busy = true → a ≠ 0x000 → (s.readRegister a).readData = Config.unspecifiedRead s.draws ∧
      (s.readRegister a).draws = s.draws + 1)

/-! ### The host's actions and the step -/

/-- When the word the host offers decodes to `i`, a step of a ready core is `exec i` of the state with
that word taken off the script; `withFetchWord` puts a word in that place; an illegal word is handled
by acceptance in the same place.
The script and the
run of a command in one step are the model's choice (notes/assumptions/2.md, 4.md, 13.md). -/
def Obligations.StepRunsDecodedCommand : Prop :=
  (∀ (s : State) (w : Byte) (i : Instr) (rest : List HostItem), s.busy = false →
    s.script = .cmd w :: rest → decodeWord w = some i → step s = exec i { s with script := rest }) ∧
  (∀ (s : State) (nbits w : Nat) (i : Instr), s.busy = false → decodeTableWord nbits w = some i →
    step (s.withFetchWord nbits w) = exec i s) ∧
  (∀ (s : State) (w : Byte) (rest : List HostItem), s.busy = false → s.script = .cmd w :: rest →
    decodeWord w = none → step s = illegalWord { s with script := rest })

/-- 10_state.md R55, R56, 70_reset_and_hazards.md R350: what the four stream actions do in a ready core;
R344: while the core is busy each of them is refused, and nothing else the machine does is refused.
The script is the model's
form of the host's actions (notes/assumptions/4.md, 8.md). -/
def Obligations.StreamActionsOfTheHost : Prop :=
  (∀ (s : State) (rest : List HostItem) (bytes : List Byte),
    (s.busy = false →
      step { s with script := .src bytes :: rest } =
        .next { s with script := rest, istr := bytes, srcOk := true } ∧
      step { s with script := .nosrc :: rest } =
        .next { s with script := rest, istr := [], srcOk := false } ∧
      step { s with script := .dst :: rest } =
        .next { s with script := rest, ostr := [], dstOk := true } ∧
      step { s with script := .nodst :: rest } = .next { s with script := rest, dstOk := false }) ∧
    (s.busy = true →
      ∀ a, a = .src bytes ∨ a = .nosrc ∨ a = .dst ∨ a = .nodst →
        step { s with script := a :: rest } = .refused .streamChangeWhileBusy)) ∧
  (∀ (s : State) (r : Refusal), step s = .refused r →
    r = .streamChangeWhileBusy ∧ s.busy = true ∧
      ∃ (a : HostItem) (rest : List HostItem), s.script = a :: rest ∧
        ((∃ bytes, a = .src bytes) ∨ a = .nosrc ∨ a = .dst ∨ a = .nodst))

/-- 46_control.md R285: the phase transitions of a core left to itself. A ready core stays. From
`PHASE` 1 it goes on with the same command; to 2 only in `ENCODE` and `DECODE` and only at the end of
the input; to 3 only in `ANALYZE`, `BUILD`, `GENCODE`, `WRHDR` and `RDHDR` (`ENCODE` and `DECODE` pass
2: 45_decoder.md R264); to 0 only in `CLEAR`; or to 4 by a `raise`. From 2 it goes only to 3, and no
`raise` occurs in `PHASE = 2`. The division of a command into steps is the model's choice
(notes/assumptions/3.md). -/
def Obligations.PhaseTransitionsOfTheCore : Prop :=
  ∀ s t : State, tick s = .next t →
    (s.busy = false → t = s) ∧
    (∀ k, s.phase = .streaming k →
      (∃ k', t.phase = .streaming k' ∧ commandOf k' = commandOf k) ∨
      (∃ f, t.phase = .flushing f ∧ s.istr = [] ∧
        ((f = .encode ∧ commandOf k = .encode) ∨ (f = .decode ∧ commandOf k = .decode))) ∨
      (t.phase = .done ∧ t.err = s.err ∧ (commandOf k = .analyze ∨ commandOf k = .build ∨
        commandOf k = .gencode ∨ commandOf k = .wrhdr ∨ commandOf k = .rdhdr)) ∨
      (t.phase = .idle ∧ t.err = .none ∧ commandOf k = .clear) ∨
      (t.phase = .error ∧ t.err ≠ .none ∧ (commandOf k = .analyze ∨ commandOf k = .build ∨
        commandOf k = .encode ∨ commandOf k = .rdhdr ∨ commandOf k = .decode))) ∧
    (∀ f, s.phase = .flushing f → t.phase = .done ∧ t.err = s.err)

/-! ### Whole-machine statements -/

/-- 20_memory.md R79, 46_control.md R284: when a host offers a command that acceptance runs and does
not wait, the core's own steps, through busy states only, end in exactly the state the command's
meaning gives, which is the next state of a host that waits. The division into steps is the model's
choice (notes/assumptions/2.md, 3.md). -/
def Obligations.RunningCommandReachesItsMeaning : Prop :=
  ∀ (w : Byte) (i : Instr) (s t : State), decodeWord w = some i →
    s.acceptance (some i) = .runs i → exec i s = .next t →
    issueWord w s = .next t ∧ offerWord w s = s.begin i ∧
      ∃ n, ticks n (s.begin i) = .next t ∧
        ∀ m < n, ∃ u, ticks m (s.begin i) = .next u ∧ u.busy = true

/-- The invariant of the core (10_state.md R33, R34, R35, R38, R42, R45, R48, R55) is kept by every
step of the machine, from every state that has it. Its clauses `part` and `task`, on where a running
command stands, range over the model's own positions (notes/assumptions/3.md), and its clause `err`
is R33 with the model's choice that the acceptance of `CLEAR` in `PHASE = 4` clears `ERR` in the same
write (notes/assumptions/16.md, from 46_control.md R281 and R285). -/
def Obligations.StepKeepsInvariant : Prop :=
  ∀ s t : State, Inv s → step s = .next t → Inv t

/-- 10_state.md R34: every step keeps that `TV = 1` means the arena and `ROOT` hold the tree `BUILD`
constructs from the current `FREQ`, and `CV = 1` that `CODE` holds the table `GENCODE` derives from
that tree, and `TV = 1`. The clause `TaskMatches` of `FlagsMean`, on where a running command stands and
what it still has to do, is the model's: it ranges over the model's own positions
(notes/assumptions/3.md). -/
def Obligations.StepKeepsMeaningOfFlags : Prop :=
  ∀ s t : State, FlagsMean s → step s = .next t → FlagsMean t

/-- Both invariants hold after reset. -/
def Obligations.ResetHasInvariants : Prop :=
  Inv State.reset ∧ FlagsMean State.reset

/-- 10_state.md R50, R52: no step changes the constant `CB`, and only the host's stream actions change
`SRC_OK` and `DST_OK`.
The constant field `cb` is the model's form of the parameter
(notes/assumptions/1.md). -/
def Obligations.CoreNeverDrivesHostSignals : Prop :=
  (∀ s t : State, step s = .next t → t.cb = s.cb) ∧
    (∀ (s t : State), step s = .next t →
      (∀ a rest, s.script = a :: rest →
        (∀ bytes, a ≠ .src bytes) ∧ a ≠ .nosrc ∧ a ≠ .dst ∧ a ≠ .nodst) →
      t.srcOk = s.srcOk ∧ t.dstOk = s.dstOk)

/-- 70_reset_and_hazards.md R351: a run that has ended has either succeeded or failed, not both, and it
has failed exactly when `ERR` is not 0. -/
def Obligations.EndedRunSucceedsOrFails : Prop :=
  ∀ s : State, Inv s → RunEnded s →
    (RunSucceeded s ∨ RunFailed s) ∧ ¬ (RunSucceeded s ∧ RunFailed s) ∧
      (RunFailed s ↔ s.err ≠ .none)

/-- 46_control.md R283 line 7: an offered word whose command the checks let through makes the core busy
with that command, `PHASE <- 1`, in `PHASE` 0 and 3 when its flag and streams are there, for `CLEAR`
in `PHASE` 4 too; nothing else changes but `ERR` for `CLEAR` (notes/assumptions/16.md), and `ERR` is 0
when the command starts (60_exceptions.md R311). The item `offer` is the model's form of the host's
action (notes/assumptions/4.md). -/
def Obligations.OfferedCommandStarts : Prop :=
  ∀ (s : State) (w : Byte) (i : Instr) (rest : List HostItem), decodeWord w = some i →
    (Accepting s ∧ s.flagHolds (needs i).flag = true ∧ ((needs i).source = true → s.srcOk = true) ∧
        ((needs i).dest = true → s.dstOk = true)) ∨ (s.phase = .error ∧ i = .clear) →
    s.acceptance (some i) = .runs i ∧
    offerWord w s = { s with phase := .streaming (.start i),
                             err := if i = .clear then .none else s.err } ∧
    step { s with script := .offer w :: rest } = .next (offerWord w { s with script := rest }) ∧
    (offerWord w s).busy = true ∧ (ErrMatches s → (offerWord w s).err = .none)
end

