-- ==== Sys2Proof/Laws/State.lean ====
section
/-! SUPPORT. One lemma per field of State per named update, true by unfolding, so that no later proof
unfolds a record update. -/

namespace Sys2Proof.Machine

variable (s : State)

/-! ### `setPhase` -/

@[simp] theorem State.setPhase_phase (p : Phase) : (s.setPhase p).phase = p := rfl
@[simp] theorem State.setPhase_err (p : Phase) : (s.setPhase p).err = s.err := rfl
@[simp] theorem State.setPhase_tv (p : Phase) : (s.setPhase p).tv = s.tv := rfl
@[simp] theorem State.setPhase_cv (p : Phase) : (s.setPhase p).cv = s.cv := rfl
@[simp] theorem State.setPhase_freq (p : Phase) : (s.setPhase p).freq = s.freq := rfl
@[simp] theorem State.setPhase_nodes (p : Phase) : (s.setPhase p).nodes = s.nodes := rfl
@[simp] theorem State.setPhase_pq (p : Phase) : (s.setPhase p).pq = s.pq := rfl
@[simp] theorem State.setPhase_root (p : Phase) : (s.setPhase p).root = s.root := rfl
@[simp] theorem State.setPhase_code (p : Phase) : (s.setPhase p).code = s.code := rfl
@[simp] theorem State.setPhase_acc (p : Phase) : (s.setPhase p).acc = s.acc := rfl
@[simp] theorem State.setPhase_accn (p : Phase) : (s.setPhase p).accn = s.accn := rfl
@[simp] theorem State.setPhase_cur (p : Phase) : (s.setPhase p).cur = s.cur := rfl
@[simp] theorem State.setPhase_cb (p : Phase) : (s.setPhase p).cb = s.cb := rfl
@[simp] theorem State.setPhase_srcOk (p : Phase) : (s.setPhase p).srcOk = s.srcOk := rfl
@[simp] theorem State.setPhase_dstOk (p : Phase) : (s.setPhase p).dstOk = s.dstOk := rfl
@[simp] theorem State.setPhase_istr (p : Phase) : (s.setPhase p).istr = s.istr := rfl
@[simp] theorem State.setPhase_ostr (p : Phase) : (s.setPhase p).ostr = s.ostr := rfl
@[simp] theorem State.setPhase_script (p : Phase) : (s.setPhase p).script = s.script := rfl
@[simp] theorem State.setPhase_readData (p : Phase) : (s.setPhase p).readData = s.readData := rfl
@[simp] theorem State.setPhase_draws (p : Phase) : (s.setPhase p).draws = s.draws := rfl

/-! ### `complete` -/

@[simp] theorem State.complete_phase : (s.complete).phase = .done := rfl
@[simp] theorem State.complete_err : (s.complete).err = s.err := rfl
@[simp] theorem State.complete_tv : (s.complete).tv = s.tv := rfl
@[simp] theorem State.complete_cv : (s.complete).cv = s.cv := rfl
@[simp] theorem State.complete_freq : (s.complete).freq = s.freq := rfl
@[simp] theorem State.complete_nodes : (s.complete).nodes = s.nodes := rfl
@[simp] theorem State.complete_pq : (s.complete).pq = s.pq := rfl
@[simp] theorem State.complete_root : (s.complete).root = s.root := rfl
@[simp] theorem State.complete_code : (s.complete).code = s.code := rfl
@[simp] theorem State.complete_acc : (s.complete).acc = s.acc := rfl
@[simp] theorem State.complete_accn : (s.complete).accn = s.accn := rfl
@[simp] theorem State.complete_cur : (s.complete).cur = s.cur := rfl
@[simp] theorem State.complete_cb : (s.complete).cb = s.cb := rfl
@[simp] theorem State.complete_srcOk : (s.complete).srcOk = s.srcOk := rfl
@[simp] theorem State.complete_dstOk : (s.complete).dstOk = s.dstOk := rfl
@[simp] theorem State.complete_istr : (s.complete).istr = s.istr := rfl
@[simp] theorem State.complete_ostr : (s.complete).ostr = s.ostr := rfl
@[simp] theorem State.complete_script : (s.complete).script = s.script := rfl
@[simp] theorem State.complete_readData : (s.complete).readData = s.readData := rfl
@[simp] theorem State.complete_draws : (s.complete).draws = s.draws := rfl

/-! ### `begin` -/

@[simp] theorem State.begin_phase (i : Instr) : (s.begin i).phase = .streaming (.start i) := rfl
@[simp] theorem State.begin_err (i : Instr) :
    (s.begin i).err = if i = .clear then .none else s.err := rfl
@[simp] theorem State.begin_tv (i : Instr) : (s.begin i).tv = s.tv := rfl
@[simp] theorem State.begin_cv (i : Instr) : (s.begin i).cv = s.cv := rfl
@[simp] theorem State.begin_freq (i : Instr) : (s.begin i).freq = s.freq := rfl
@[simp] theorem State.begin_nodes (i : Instr) : (s.begin i).nodes = s.nodes := rfl
@[simp] theorem State.begin_pq (i : Instr) : (s.begin i).pq = s.pq := rfl
@[simp] theorem State.begin_root (i : Instr) : (s.begin i).root = s.root := rfl
@[simp] theorem State.begin_code (i : Instr) : (s.begin i).code = s.code := rfl
@[simp] theorem State.begin_acc (i : Instr) : (s.begin i).acc = s.acc := rfl
@[simp] theorem State.begin_accn (i : Instr) : (s.begin i).accn = s.accn := rfl
@[simp] theorem State.begin_cur (i : Instr) : (s.begin i).cur = s.cur := rfl
@[simp] theorem State.begin_cb (i : Instr) : (s.begin i).cb = s.cb := rfl
@[simp] theorem State.begin_srcOk (i : Instr) : (s.begin i).srcOk = s.srcOk := rfl
@[simp] theorem State.begin_dstOk (i : Instr) : (s.begin i).dstOk = s.dstOk := rfl
@[simp] theorem State.begin_istr (i : Instr) : (s.begin i).istr = s.istr := rfl
@[simp] theorem State.begin_ostr (i : Instr) : (s.begin i).ostr = s.ostr := rfl
@[simp] theorem State.begin_script (i : Instr) : (s.begin i).script = s.script := rfl
@[simp] theorem State.begin_readData (i : Instr) : (s.begin i).readData = s.readData := rfl
@[simp] theorem State.begin_draws (i : Instr) : (s.begin i).draws = s.draws := rfl

/-! ### `standAt` -/

@[simp] theorem State.standAt_phase (t : Task) : (s.standAt t).phase = .streaming t := rfl
@[simp] theorem State.standAt_err (t : Task) : (s.standAt t).err = s.err := rfl
@[simp] theorem State.standAt_tv (t : Task) : (s.standAt t).tv = s.tv := rfl
@[simp] theorem State.standAt_cv (t : Task) : (s.standAt t).cv = s.cv := rfl
@[simp] theorem State.standAt_freq (t : Task) : (s.standAt t).freq = s.freq := rfl
@[simp] theorem State.standAt_nodes (t : Task) : (s.standAt t).nodes = s.nodes := rfl
@[simp] theorem State.standAt_pq (t : Task) : (s.standAt t).pq = s.pq := rfl
@[simp] theorem State.standAt_root (t : Task) : (s.standAt t).root = s.root := rfl
@[simp] theorem State.standAt_code (t : Task) : (s.standAt t).code = s.code := rfl
@[simp] theorem State.standAt_acc (t : Task) : (s.standAt t).acc = s.acc := rfl
@[simp] theorem State.standAt_accn (t : Task) : (s.standAt t).accn = s.accn := rfl
@[simp] theorem State.standAt_cur (t : Task) : (s.standAt t).cur = s.cur := rfl
@[simp] theorem State.standAt_cb (t : Task) : (s.standAt t).cb = s.cb := rfl
@[simp] theorem State.standAt_srcOk (t : Task) : (s.standAt t).srcOk = s.srcOk := rfl
@[simp] theorem State.standAt_dstOk (t : Task) : (s.standAt t).dstOk = s.dstOk := rfl
@[simp] theorem State.standAt_istr (t : Task) : (s.standAt t).istr = s.istr := rfl
@[simp] theorem State.standAt_ostr (t : Task) : (s.standAt t).ostr = s.ostr := rfl
@[simp] theorem State.standAt_script (t : Task) : (s.standAt t).script = s.script := rfl
@[simp] theorem State.standAt_readData (t : Task) : (s.standAt t).readData = s.readData := rfl
@[simp] theorem State.standAt_draws (t : Task) : (s.standAt t).draws = s.draws := rfl

/-! ### `raise` -/

@[simp] theorem State.raise_phase (e : Err) : (s.raise e).phase = .error := rfl
@[simp] theorem State.raise_err (e : Err) : (s.raise e).err = e := rfl
@[simp] theorem State.raise_tv (e : Err) : (s.raise e).tv = s.tv := rfl
@[simp] theorem State.raise_cv (e : Err) : (s.raise e).cv = s.cv := rfl
@[simp] theorem State.raise_freq (e : Err) : (s.raise e).freq = s.freq := rfl
@[simp] theorem State.raise_nodes (e : Err) : (s.raise e).nodes = s.nodes := rfl
@[simp] theorem State.raise_pq (e : Err) : (s.raise e).pq = s.pq := rfl
@[simp] theorem State.raise_root (e : Err) : (s.raise e).root = s.root := rfl
@[simp] theorem State.raise_code (e : Err) : (s.raise e).code = s.code := rfl
@[simp] theorem State.raise_acc (e : Err) : (s.raise e).acc = s.acc := rfl
@[simp] theorem State.raise_accn (e : Err) : (s.raise e).accn = s.accn := rfl
@[simp] theorem State.raise_cur (e : Err) : (s.raise e).cur = s.cur := rfl
@[simp] theorem State.raise_cb (e : Err) : (s.raise e).cb = s.cb := rfl
@[simp] theorem State.raise_srcOk (e : Err) : (s.raise e).srcOk = s.srcOk := rfl
@[simp] theorem State.raise_dstOk (e : Err) : (s.raise e).dstOk = s.dstOk := rfl
@[simp] theorem State.raise_istr (e : Err) : (s.raise e).istr = s.istr := rfl
@[simp] theorem State.raise_ostr (e : Err) : (s.raise e).ostr = s.ostr := rfl
@[simp] theorem State.raise_script (e : Err) : (s.raise e).script = s.script := rfl
@[simp] theorem State.raise_readData (e : Err) : (s.raise e).readData = s.readData := rfl
@[simp] theorem State.raise_draws (e : Err) : (s.raise e).draws = s.draws := rfl

/-! ### `clearFlags` -/

@[simp] theorem State.clearFlags_phase : (s.clearFlags).phase = s.phase := rfl
@[simp] theorem State.clearFlags_err : (s.clearFlags).err = s.err := rfl
@[simp] theorem State.clearFlags_tv : (s.clearFlags).tv = false := rfl
@[simp] theorem State.clearFlags_cv : (s.clearFlags).cv = false := rfl
@[simp] theorem State.clearFlags_freq : (s.clearFlags).freq = s.freq := rfl
@[simp] theorem State.clearFlags_nodes : (s.clearFlags).nodes = s.nodes := rfl
@[simp] theorem State.clearFlags_pq : (s.clearFlags).pq = s.pq := rfl
@[simp] theorem State.clearFlags_root : (s.clearFlags).root = s.root := rfl
@[simp] theorem State.clearFlags_code : (s.clearFlags).code = s.code := rfl
@[simp] theorem State.clearFlags_acc : (s.clearFlags).acc = s.acc := rfl
@[simp] theorem State.clearFlags_accn : (s.clearFlags).accn = s.accn := rfl
@[simp] theorem State.clearFlags_cur : (s.clearFlags).cur = s.cur := rfl
@[simp] theorem State.clearFlags_cb : (s.clearFlags).cb = s.cb := rfl
@[simp] theorem State.clearFlags_srcOk : (s.clearFlags).srcOk = s.srcOk := rfl
@[simp] theorem State.clearFlags_dstOk : (s.clearFlags).dstOk = s.dstOk := rfl
@[simp] theorem State.clearFlags_istr : (s.clearFlags).istr = s.istr := rfl
@[simp] theorem State.clearFlags_ostr : (s.clearFlags).ostr = s.ostr := rfl
@[simp] theorem State.clearFlags_script : (s.clearFlags).script = s.script := rfl
@[simp] theorem State.clearFlags_readData : (s.clearFlags).readData = s.readData := rfl
@[simp] theorem State.clearFlags_draws : (s.clearFlags).draws = s.draws := rfl

/-! ### `setTv` -/

@[simp] theorem State.setTv_phase : (s.setTv).phase = s.phase := rfl
@[simp] theorem State.setTv_err : (s.setTv).err = s.err := rfl
@[simp] theorem State.setTv_tv : (s.setTv).tv = true := rfl
@[simp] theorem State.setTv_cv : (s.setTv).cv = s.cv := rfl
@[simp] theorem State.setTv_freq : (s.setTv).freq = s.freq := rfl
@[simp] theorem State.setTv_nodes : (s.setTv).nodes = s.nodes := rfl
@[simp] theorem State.setTv_pq : (s.setTv).pq = s.pq := rfl
@[simp] theorem State.setTv_root : (s.setTv).root = s.root := rfl
@[simp] theorem State.setTv_code : (s.setTv).code = s.code := rfl
@[simp] theorem State.setTv_acc : (s.setTv).acc = s.acc := rfl
@[simp] theorem State.setTv_accn : (s.setTv).accn = s.accn := rfl
@[simp] theorem State.setTv_cur : (s.setTv).cur = s.cur := rfl
@[simp] theorem State.setTv_cb : (s.setTv).cb = s.cb := rfl
@[simp] theorem State.setTv_srcOk : (s.setTv).srcOk = s.srcOk := rfl
@[simp] theorem State.setTv_dstOk : (s.setTv).dstOk = s.dstOk := rfl
@[simp] theorem State.setTv_istr : (s.setTv).istr = s.istr := rfl
@[simp] theorem State.setTv_ostr : (s.setTv).ostr = s.ostr := rfl
@[simp] theorem State.setTv_script : (s.setTv).script = s.script := rfl
@[simp] theorem State.setTv_readData : (s.setTv).readData = s.readData := rfl
@[simp] theorem State.setTv_draws : (s.setTv).draws = s.draws := rfl

/-! ### `setCv` -/

@[simp] theorem State.setCv_phase (v : Bool) : (s.setCv v).phase = s.phase := rfl
@[simp] theorem State.setCv_err (v : Bool) : (s.setCv v).err = s.err := rfl
@[simp] theorem State.setCv_tv (v : Bool) : (s.setCv v).tv = s.tv := rfl
@[simp] theorem State.setCv_cv (v : Bool) : (s.setCv v).cv = v := rfl
@[simp] theorem State.setCv_freq (v : Bool) : (s.setCv v).freq = s.freq := rfl
@[simp] theorem State.setCv_nodes (v : Bool) : (s.setCv v).nodes = s.nodes := rfl
@[simp] theorem State.setCv_pq (v : Bool) : (s.setCv v).pq = s.pq := rfl
@[simp] theorem State.setCv_root (v : Bool) : (s.setCv v).root = s.root := rfl
@[simp] theorem State.setCv_code (v : Bool) : (s.setCv v).code = s.code := rfl
@[simp] theorem State.setCv_acc (v : Bool) : (s.setCv v).acc = s.acc := rfl
@[simp] theorem State.setCv_accn (v : Bool) : (s.setCv v).accn = s.accn := rfl
@[simp] theorem State.setCv_cur (v : Bool) : (s.setCv v).cur = s.cur := rfl
@[simp] theorem State.setCv_cb (v : Bool) : (s.setCv v).cb = s.cb := rfl
@[simp] theorem State.setCv_srcOk (v : Bool) : (s.setCv v).srcOk = s.srcOk := rfl
@[simp] theorem State.setCv_dstOk (v : Bool) : (s.setCv v).dstOk = s.dstOk := rfl
@[simp] theorem State.setCv_istr (v : Bool) : (s.setCv v).istr = s.istr := rfl
@[simp] theorem State.setCv_ostr (v : Bool) : (s.setCv v).ostr = s.ostr := rfl
@[simp] theorem State.setCv_script (v : Bool) : (s.setCv v).script = s.script := rfl
@[simp] theorem State.setCv_readData (v : Bool) : (s.setCv v).readData = s.readData := rfl
@[simp] theorem State.setCv_draws (v : Bool) : (s.setCv v).draws = s.draws := rfl

/-! ### `dstWrite` -/

@[simp] theorem State.dstWrite_phase (b : Byte) : (s.dstWrite b).phase = s.phase := rfl
@[simp] theorem State.dstWrite_err (b : Byte) : (s.dstWrite b).err = s.err := rfl
@[simp] theorem State.dstWrite_tv (b : Byte) : (s.dstWrite b).tv = s.tv := rfl
@[simp] theorem State.dstWrite_cv (b : Byte) : (s.dstWrite b).cv = s.cv := rfl
@[simp] theorem State.dstWrite_freq (b : Byte) : (s.dstWrite b).freq = s.freq := rfl
@[simp] theorem State.dstWrite_nodes (b : Byte) : (s.dstWrite b).nodes = s.nodes := rfl
@[simp] theorem State.dstWrite_pq (b : Byte) : (s.dstWrite b).pq = s.pq := rfl
@[simp] theorem State.dstWrite_root (b : Byte) : (s.dstWrite b).root = s.root := rfl
@[simp] theorem State.dstWrite_code (b : Byte) : (s.dstWrite b).code = s.code := rfl
@[simp] theorem State.dstWrite_acc (b : Byte) : (s.dstWrite b).acc = s.acc := rfl
@[simp] theorem State.dstWrite_accn (b : Byte) : (s.dstWrite b).accn = s.accn := rfl
@[simp] theorem State.dstWrite_cur (b : Byte) : (s.dstWrite b).cur = s.cur := rfl
@[simp] theorem State.dstWrite_cb (b : Byte) : (s.dstWrite b).cb = s.cb := rfl
@[simp] theorem State.dstWrite_srcOk (b : Byte) : (s.dstWrite b).srcOk = s.srcOk := rfl
@[simp] theorem State.dstWrite_dstOk (b : Byte) : (s.dstWrite b).dstOk = s.dstOk := rfl
@[simp] theorem State.dstWrite_istr (b : Byte) : (s.dstWrite b).istr = s.istr := rfl
@[simp] theorem State.dstWrite_ostr (b : Byte) : (s.dstWrite b).ostr = s.ostr ++ [b] := rfl
@[simp] theorem State.dstWrite_script (b : Byte) : (s.dstWrite b).script = s.script := rfl
@[simp] theorem State.dstWrite_readData (b : Byte) : (s.dstWrite b).readData = s.readData := rfl
@[simp] theorem State.dstWrite_draws (b : Byte) : (s.dstWrite b).draws = s.draws := rfl

/-! ### `setFreq` -/

@[simp] theorem State.setFreq_phase (b : Byte) (v : Count) : (s.setFreq b v).phase = s.phase := rfl
@[simp] theorem State.setFreq_err (b : Byte) (v : Count) : (s.setFreq b v).err = s.err := rfl
@[simp] theorem State.setFreq_tv (b : Byte) (v : Count) : (s.setFreq b v).tv = s.tv := rfl
@[simp] theorem State.setFreq_cv (b : Byte) (v : Count) : (s.setFreq b v).cv = s.cv := rfl
@[simp] theorem State.setFreq_freq (b : Byte) (v : Count) :
    (s.setFreq b v).freq = s.freq.putByte b v := rfl
@[simp] theorem State.setFreq_nodes (b : Byte) (v : Count) : (s.setFreq b v).nodes = s.nodes := rfl
@[simp] theorem State.setFreq_pq (b : Byte) (v : Count) : (s.setFreq b v).pq = s.pq := rfl
@[simp] theorem State.setFreq_root (b : Byte) (v : Count) : (s.setFreq b v).root = s.root := rfl
@[simp] theorem State.setFreq_code (b : Byte) (v : Count) : (s.setFreq b v).code = s.code := rfl
@[simp] theorem State.setFreq_acc (b : Byte) (v : Count) : (s.setFreq b v).acc = s.acc := rfl
@[simp] theorem State.setFreq_accn (b : Byte) (v : Count) : (s.setFreq b v).accn = s.accn := rfl
@[simp] theorem State.setFreq_cur (b : Byte) (v : Count) : (s.setFreq b v).cur = s.cur := rfl
@[simp] theorem State.setFreq_cb (b : Byte) (v : Count) : (s.setFreq b v).cb = s.cb := rfl
@[simp] theorem State.setFreq_srcOk (b : Byte) (v : Count) : (s.setFreq b v).srcOk = s.srcOk := rfl
@[simp] theorem State.setFreq_dstOk (b : Byte) (v : Count) : (s.setFreq b v).dstOk = s.dstOk := rfl
@[simp] theorem State.setFreq_istr (b : Byte) (v : Count) : (s.setFreq b v).istr = s.istr := rfl
@[simp] theorem State.setFreq_ostr (b : Byte) (v : Count) : (s.setFreq b v).ostr = s.ostr := rfl
@[simp] theorem State.setFreq_script (b : Byte) (v : Count) :
    (s.setFreq b v).script = s.script := rfl
@[simp] theorem State.setFreq_readData (b : Byte) (v : Count) :
    (s.setFreq b v).readData = s.readData := rfl
@[simp] theorem State.setFreq_draws (b : Byte) (v : Count) : (s.setFreq b v).draws = s.draws := rfl

/-! ### `setCode` -/

@[simp] theorem State.setCode_phase (b : Byte) (r : CodeRec) :
    (s.setCode b r).phase = s.phase := rfl
@[simp] theorem State.setCode_err (b : Byte) (r : CodeRec) : (s.setCode b r).err = s.err := rfl
@[simp] theorem State.setCode_tv (b : Byte) (r : CodeRec) : (s.setCode b r).tv = s.tv := rfl
@[simp] theorem State.setCode_cv (b : Byte) (r : CodeRec) : (s.setCode b r).cv = s.cv := rfl
@[simp] theorem State.setCode_freq (b : Byte) (r : CodeRec) : (s.setCode b r).freq = s.freq := rfl
@[simp] theorem State.setCode_nodes (b : Byte) (r : CodeRec) :
    (s.setCode b r).nodes = s.nodes := rfl
@[simp] theorem State.setCode_pq (b : Byte) (r : CodeRec) : (s.setCode b r).pq = s.pq := rfl
@[simp] theorem State.setCode_root (b : Byte) (r : CodeRec) : (s.setCode b r).root = s.root := rfl
@[simp] theorem State.setCode_code (b : Byte) (r : CodeRec) :
    (s.setCode b r).code = s.code.putByte b r := rfl
@[simp] theorem State.setCode_acc (b : Byte) (r : CodeRec) : (s.setCode b r).acc = s.acc := rfl
@[simp] theorem State.setCode_accn (b : Byte) (r : CodeRec) : (s.setCode b r).accn = s.accn := rfl
@[simp] theorem State.setCode_cur (b : Byte) (r : CodeRec) : (s.setCode b r).cur = s.cur := rfl
@[simp] theorem State.setCode_cb (b : Byte) (r : CodeRec) : (s.setCode b r).cb = s.cb := rfl
@[simp] theorem State.setCode_srcOk (b : Byte) (r : CodeRec) :
    (s.setCode b r).srcOk = s.srcOk := rfl
@[simp] theorem State.setCode_dstOk (b : Byte) (r : CodeRec) :
    (s.setCode b r).dstOk = s.dstOk := rfl
@[simp] theorem State.setCode_istr (b : Byte) (r : CodeRec) : (s.setCode b r).istr = s.istr := rfl
@[simp] theorem State.setCode_ostr (b : Byte) (r : CodeRec) : (s.setCode b r).ostr = s.ostr := rfl
@[simp] theorem State.setCode_script (b : Byte) (r : CodeRec) :
    (s.setCode b r).script = s.script := rfl
@[simp] theorem State.setCode_readData (b : Byte) (r : CodeRec) :
    (s.setCode b r).readData = s.readData := rfl
@[simp] theorem State.setCode_draws (b : Byte) (r : CodeRec) :
    (s.setCode b r).draws = s.draws := rfl

/-! ### `zeroCounts` -/

@[simp] theorem State.zeroCounts_phase : (s.zeroCounts).phase = s.phase := rfl
@[simp] theorem State.zeroCounts_err : (s.zeroCounts).err = s.err := rfl
@[simp] theorem State.zeroCounts_tv : (s.zeroCounts).tv = false := rfl
@[simp] theorem State.zeroCounts_cv : (s.zeroCounts).cv = false := rfl
@[simp] theorem State.zeroCounts_freq : (s.zeroCounts).freq = Table.const 0 8 := rfl
@[simp] theorem State.zeroCounts_nodes : (s.zeroCounts).nodes = s.nodes := rfl
@[simp] theorem State.zeroCounts_pq : (s.zeroCounts).pq = s.pq := rfl
@[simp] theorem State.zeroCounts_root : (s.zeroCounts).root = s.root := rfl
@[simp] theorem State.zeroCounts_code : (s.zeroCounts).code = s.code := rfl
@[simp] theorem State.zeroCounts_acc : (s.zeroCounts).acc = s.acc := rfl
@[simp] theorem State.zeroCounts_accn : (s.zeroCounts).accn = s.accn := rfl
@[simp] theorem State.zeroCounts_cur : (s.zeroCounts).cur = s.cur := rfl
@[simp] theorem State.zeroCounts_cb : (s.zeroCounts).cb = s.cb := rfl
@[simp] theorem State.zeroCounts_srcOk : (s.zeroCounts).srcOk = s.srcOk := rfl
@[simp] theorem State.zeroCounts_dstOk : (s.zeroCounts).dstOk = s.dstOk := rfl
@[simp] theorem State.zeroCounts_istr : (s.zeroCounts).istr = s.istr := rfl
@[simp] theorem State.zeroCounts_ostr : (s.zeroCounts).ostr = s.ostr := rfl
@[simp] theorem State.zeroCounts_script : (s.zeroCounts).script = s.script := rfl
@[simp] theorem State.zeroCounts_readData : (s.zeroCounts).readData = s.readData := rfl
@[simp] theorem State.zeroCounts_draws : (s.zeroCounts).draws = s.draws := rfl

/-! ### `buildStart` -/

@[simp] theorem State.buildStart_phase : (s.buildStart).phase = s.phase := rfl
@[simp] theorem State.buildStart_err : (s.buildStart).err = s.err := rfl
@[simp] theorem State.buildStart_tv : (s.buildStart).tv = false := rfl
@[simp] theorem State.buildStart_cv : (s.buildStart).cv = false := rfl
@[simp] theorem State.buildStart_freq : (s.buildStart).freq = s.freq := rfl
@[simp] theorem State.buildStart_nodes : (s.buildStart).nodes = [] := rfl
@[simp] theorem State.buildStart_pq : (s.buildStart).pq = [] := rfl
@[simp] theorem State.buildStart_root : (s.buildStart).root = 0 := rfl
@[simp] theorem State.buildStart_code : (s.buildStart).code = s.code := rfl
@[simp] theorem State.buildStart_acc : (s.buildStart).acc = s.acc := rfl
@[simp] theorem State.buildStart_accn : (s.buildStart).accn = s.accn := rfl
@[simp] theorem State.buildStart_cur : (s.buildStart).cur = s.cur := rfl
@[simp] theorem State.buildStart_cb : (s.buildStart).cb = s.cb := rfl
@[simp] theorem State.buildStart_srcOk : (s.buildStart).srcOk = s.srcOk := rfl
@[simp] theorem State.buildStart_dstOk : (s.buildStart).dstOk = s.dstOk := rfl
@[simp] theorem State.buildStart_istr : (s.buildStart).istr = s.istr := rfl
@[simp] theorem State.buildStart_ostr : (s.buildStart).ostr = s.ostr := rfl
@[simp] theorem State.buildStart_script : (s.buildStart).script = s.script := rfl
@[simp] theorem State.buildStart_readData : (s.buildStart).readData = s.readData := rfl
@[simp] theorem State.buildStart_draws : (s.buildStart).draws = s.draws := rfl

/-! ### `gencodeStart` -/

@[simp] theorem State.gencodeStart_phase : (s.gencodeStart).phase = s.phase := rfl
@[simp] theorem State.gencodeStart_err : (s.gencodeStart).err = s.err := rfl
@[simp] theorem State.gencodeStart_tv : (s.gencodeStart).tv = s.tv := rfl
@[simp] theorem State.gencodeStart_cv : (s.gencodeStart).cv = false := rfl
@[simp] theorem State.gencodeStart_freq : (s.gencodeStart).freq = s.freq := rfl
@[simp] theorem State.gencodeStart_nodes : (s.gencodeStart).nodes = s.nodes := rfl
@[simp] theorem State.gencodeStart_pq : (s.gencodeStart).pq = s.pq := rfl
@[simp] theorem State.gencodeStart_root : (s.gencodeStart).root = s.root := rfl
@[simp] theorem State.gencodeStart_code : (s.gencodeStart).code = Table.const CodeRec.none 8 := rfl
@[simp] theorem State.gencodeStart_acc : (s.gencodeStart).acc = s.acc := rfl
@[simp] theorem State.gencodeStart_accn : (s.gencodeStart).accn = s.accn := rfl
@[simp] theorem State.gencodeStart_cur : (s.gencodeStart).cur = s.cur := rfl
@[simp] theorem State.gencodeStart_cb : (s.gencodeStart).cb = s.cb := rfl
@[simp] theorem State.gencodeStart_srcOk : (s.gencodeStart).srcOk = s.srcOk := rfl
@[simp] theorem State.gencodeStart_dstOk : (s.gencodeStart).dstOk = s.dstOk := rfl
@[simp] theorem State.gencodeStart_istr : (s.gencodeStart).istr = s.istr := rfl
@[simp] theorem State.gencodeStart_ostr : (s.gencodeStart).ostr = s.ostr := rfl
@[simp] theorem State.gencodeStart_script : (s.gencodeStart).script = s.script := rfl
@[simp] theorem State.gencodeStart_readData : (s.gencodeStart).readData = s.readData := rfl
@[simp] theorem State.gencodeStart_draws : (s.gencodeStart).draws = s.draws := rfl

/-! ### `gencodeFinish` -/

@[simp] theorem State.gencodeFinish_phase : (s.gencodeFinish).phase = .done := rfl
@[simp] theorem State.gencodeFinish_err : (s.gencodeFinish).err = s.err := rfl
@[simp] theorem State.gencodeFinish_tv : (s.gencodeFinish).tv = s.tv := rfl
@[simp] theorem State.gencodeFinish_cv : (s.gencodeFinish).cv = true := rfl
@[simp] theorem State.gencodeFinish_freq : (s.gencodeFinish).freq = s.freq := rfl
@[simp] theorem State.gencodeFinish_nodes : (s.gencodeFinish).nodes = s.nodes := rfl
@[simp] theorem State.gencodeFinish_pq : (s.gencodeFinish).pq = s.pq := rfl
@[simp] theorem State.gencodeFinish_root : (s.gencodeFinish).root = s.root := rfl
@[simp] theorem State.gencodeFinish_code : (s.gencodeFinish).code = s.code := rfl
@[simp] theorem State.gencodeFinish_acc : (s.gencodeFinish).acc = s.acc := rfl
@[simp] theorem State.gencodeFinish_accn : (s.gencodeFinish).accn = s.accn := rfl
@[simp] theorem State.gencodeFinish_cur : (s.gencodeFinish).cur = s.cur := rfl
@[simp] theorem State.gencodeFinish_cb : (s.gencodeFinish).cb = s.cb := rfl
@[simp] theorem State.gencodeFinish_srcOk : (s.gencodeFinish).srcOk = s.srcOk := rfl
@[simp] theorem State.gencodeFinish_dstOk : (s.gencodeFinish).dstOk = s.dstOk := rfl
@[simp] theorem State.gencodeFinish_istr : (s.gencodeFinish).istr = s.istr := rfl
@[simp] theorem State.gencodeFinish_ostr : (s.gencodeFinish).ostr = s.ostr := rfl
@[simp] theorem State.gencodeFinish_script : (s.gencodeFinish).script = s.script := rfl
@[simp] theorem State.gencodeFinish_readData : (s.gencodeFinish).readData = s.readData := rfl
@[simp] theorem State.gencodeFinish_draws : (s.gencodeFinish).draws = s.draws := rfl

/-! ### `visitLeaf` -/

@[simp] theorem State.visitLeaf_phase (n : NodeIdx) (p : List Bool) :
    (s.visitLeaf n p).phase = s.phase := rfl
@[simp] theorem State.visitLeaf_err (n : NodeIdx) (p : List Bool) :
    (s.visitLeaf n p).err = s.err := rfl
@[simp] theorem State.visitLeaf_tv (n : NodeIdx) (p : List Bool) :
    (s.visitLeaf n p).tv = s.tv := rfl
@[simp] theorem State.visitLeaf_cv (n : NodeIdx) (p : List Bool) :
    (s.visitLeaf n p).cv = s.cv := rfl
@[simp] theorem State.visitLeaf_freq (n : NodeIdx) (p : List Bool) :
    (s.visitLeaf n p).freq = s.freq := rfl
@[simp] theorem State.visitLeaf_nodes (n : NodeIdx) (p : List Bool) :
    (s.visitLeaf n p).nodes = s.nodes := rfl
@[simp] theorem State.visitLeaf_pq (n : NodeIdx) (p : List Bool) :
    (s.visitLeaf n p).pq = s.pq := rfl
@[simp] theorem State.visitLeaf_root (n : NodeIdx) (p : List Bool) :
    (s.visitLeaf n p).root = s.root := rfl
@[simp] theorem State.visitLeaf_code (n : NodeIdx) (p : List Bool) :
    (s.visitLeaf n p).code = s.code.putByte (s.nodeAt n).sym (codeOfPath p) := rfl
@[simp] theorem State.visitLeaf_acc (n : NodeIdx) (p : List Bool) :
    (s.visitLeaf n p).acc = s.acc := rfl
@[simp] theorem State.visitLeaf_accn (n : NodeIdx) (p : List Bool) :
    (s.visitLeaf n p).accn = s.accn := rfl
@[simp] theorem State.visitLeaf_cur (n : NodeIdx) (p : List Bool) :
    (s.visitLeaf n p).cur = s.cur := rfl
@[simp] theorem State.visitLeaf_cb (n : NodeIdx) (p : List Bool) :
    (s.visitLeaf n p).cb = s.cb := rfl
@[simp] theorem State.visitLeaf_srcOk (n : NodeIdx) (p : List Bool) :
    (s.visitLeaf n p).srcOk = s.srcOk := rfl
@[simp] theorem State.visitLeaf_dstOk (n : NodeIdx) (p : List Bool) :
    (s.visitLeaf n p).dstOk = s.dstOk := rfl
@[simp] theorem State.visitLeaf_istr (n : NodeIdx) (p : List Bool) :
    (s.visitLeaf n p).istr = s.istr := rfl
@[simp] theorem State.visitLeaf_ostr (n : NodeIdx) (p : List Bool) :
    (s.visitLeaf n p).ostr = s.ostr := rfl
@[simp] theorem State.visitLeaf_script (n : NodeIdx) (p : List Bool) :
    (s.visitLeaf n p).script = s.script := rfl
@[simp] theorem State.visitLeaf_readData (n : NodeIdx) (p : List Bool) :
    (s.visitLeaf n p).readData = s.readData := rfl
@[simp] theorem State.visitLeaf_draws (n : NodeIdx) (p : List Bool) :
    (s.visitLeaf n p).draws = s.draws := rfl

/-! ### `clearAcc` -/

@[simp] theorem State.clearAcc_phase : (s.clearAcc).phase = s.phase := rfl
@[simp] theorem State.clearAcc_err : (s.clearAcc).err = s.err := rfl
@[simp] theorem State.clearAcc_tv : (s.clearAcc).tv = s.tv := rfl
@[simp] theorem State.clearAcc_cv : (s.clearAcc).cv = s.cv := rfl
@[simp] theorem State.clearAcc_freq : (s.clearAcc).freq = s.freq := rfl
@[simp] theorem State.clearAcc_nodes : (s.clearAcc).nodes = s.nodes := rfl
@[simp] theorem State.clearAcc_pq : (s.clearAcc).pq = s.pq := rfl
@[simp] theorem State.clearAcc_root : (s.clearAcc).root = s.root := rfl
@[simp] theorem State.clearAcc_code : (s.clearAcc).code = s.code := rfl
@[simp] theorem State.clearAcc_acc : (s.clearAcc).acc = 0 := rfl
@[simp] theorem State.clearAcc_accn : (s.clearAcc).accn = 0 := rfl
@[simp] theorem State.clearAcc_cur : (s.clearAcc).cur = s.cur := rfl
@[simp] theorem State.clearAcc_cb : (s.clearAcc).cb = s.cb := rfl
@[simp] theorem State.clearAcc_srcOk : (s.clearAcc).srcOk = s.srcOk := rfl
@[simp] theorem State.clearAcc_dstOk : (s.clearAcc).dstOk = s.dstOk := rfl
@[simp] theorem State.clearAcc_istr : (s.clearAcc).istr = s.istr := rfl
@[simp] theorem State.clearAcc_ostr : (s.clearAcc).ostr = s.ostr := rfl
@[simp] theorem State.clearAcc_script : (s.clearAcc).script = s.script := rfl
@[simp] theorem State.clearAcc_readData : (s.clearAcc).readData = s.readData := rfl
@[simp] theorem State.clearAcc_draws : (s.clearAcc).draws = s.draws := rfl

/-! ### `setCur` -/

@[simp] theorem State.setCur_phase (n : NodeIdx) : (s.setCur n).phase = s.phase := rfl
@[simp] theorem State.setCur_err (n : NodeIdx) : (s.setCur n).err = s.err := rfl
@[simp] theorem State.setCur_tv (n : NodeIdx) : (s.setCur n).tv = s.tv := rfl
@[simp] theorem State.setCur_cv (n : NodeIdx) : (s.setCur n).cv = s.cv := rfl
@[simp] theorem State.setCur_freq (n : NodeIdx) : (s.setCur n).freq = s.freq := rfl
@[simp] theorem State.setCur_nodes (n : NodeIdx) : (s.setCur n).nodes = s.nodes := rfl
@[simp] theorem State.setCur_pq (n : NodeIdx) : (s.setCur n).pq = s.pq := rfl
@[simp] theorem State.setCur_root (n : NodeIdx) : (s.setCur n).root = s.root := rfl
@[simp] theorem State.setCur_code (n : NodeIdx) : (s.setCur n).code = s.code := rfl
@[simp] theorem State.setCur_acc (n : NodeIdx) : (s.setCur n).acc = s.acc := rfl
@[simp] theorem State.setCur_accn (n : NodeIdx) : (s.setCur n).accn = s.accn := rfl
@[simp] theorem State.setCur_cur (n : NodeIdx) : (s.setCur n).cur = n := rfl
@[simp] theorem State.setCur_cb (n : NodeIdx) : (s.setCur n).cb = s.cb := rfl
@[simp] theorem State.setCur_srcOk (n : NodeIdx) : (s.setCur n).srcOk = s.srcOk := rfl
@[simp] theorem State.setCur_dstOk (n : NodeIdx) : (s.setCur n).dstOk = s.dstOk := rfl
@[simp] theorem State.setCur_istr (n : NodeIdx) : (s.setCur n).istr = s.istr := rfl
@[simp] theorem State.setCur_ostr (n : NodeIdx) : (s.setCur n).ostr = s.ostr := rfl
@[simp] theorem State.setCur_script (n : NodeIdx) : (s.setCur n).script = s.script := rfl
@[simp] theorem State.setCur_readData (n : NodeIdx) : (s.setCur n).readData = s.readData := rfl
@[simp] theorem State.setCur_draws (n : NodeIdx) : (s.setCur n).draws = s.draws := rfl

/-! ### `clearCore` -/

@[simp] theorem State.clearCore_phase : (s.clearCore).phase = .idle := rfl
@[simp] theorem State.clearCore_err : (s.clearCore).err = .none := rfl
@[simp] theorem State.clearCore_tv : (s.clearCore).tv = false := rfl
@[simp] theorem State.clearCore_cv : (s.clearCore).cv = false := rfl
@[simp] theorem State.clearCore_freq : (s.clearCore).freq = Table.const 0 8 := rfl
@[simp] theorem State.clearCore_nodes : (s.clearCore).nodes = [] := rfl
@[simp] theorem State.clearCore_pq : (s.clearCore).pq = [] := rfl
@[simp] theorem State.clearCore_root : (s.clearCore).root = 0 := rfl
@[simp] theorem State.clearCore_code : (s.clearCore).code = Table.const CodeRec.none 8 := rfl
@[simp] theorem State.clearCore_acc : (s.clearCore).acc = 0 := rfl
@[simp] theorem State.clearCore_accn : (s.clearCore).accn = 0 := rfl
@[simp] theorem State.clearCore_cur : (s.clearCore).cur = 0 := rfl
@[simp] theorem State.clearCore_cb : (s.clearCore).cb = s.cb := rfl
@[simp] theorem State.clearCore_srcOk : (s.clearCore).srcOk = s.srcOk := rfl
@[simp] theorem State.clearCore_dstOk : (s.clearCore).dstOk = s.dstOk := rfl
@[simp] theorem State.clearCore_istr : (s.clearCore).istr = s.istr := rfl
@[simp] theorem State.clearCore_ostr : (s.clearCore).ostr = s.ostr := rfl
@[simp] theorem State.clearCore_script : (s.clearCore).script = s.script := rfl
@[simp] theorem State.clearCore_readData : (s.clearCore).readData = s.readData := rfl
@[simp] theorem State.clearCore_draws : (s.clearCore).draws = s.draws := rfl

/-! ### `attachSource` -/

@[simp] theorem State.attachSource_phase (bs : List Byte) :
    (s.attachSource bs).phase = s.phase := rfl
@[simp] theorem State.attachSource_err (bs : List Byte) : (s.attachSource bs).err = s.err := rfl
@[simp] theorem State.attachSource_tv (bs : List Byte) : (s.attachSource bs).tv = s.tv := rfl
@[simp] theorem State.attachSource_cv (bs : List Byte) : (s.attachSource bs).cv = s.cv := rfl
@[simp] theorem State.attachSource_freq (bs : List Byte) : (s.attachSource bs).freq = s.freq := rfl
@[simp] theorem State.attachSource_nodes (bs : List Byte) :
    (s.attachSource bs).nodes = s.nodes := rfl
@[simp] theorem State.attachSource_pq (bs : List Byte) : (s.attachSource bs).pq = s.pq := rfl
@[simp] theorem State.attachSource_root (bs : List Byte) : (s.attachSource bs).root = s.root := rfl
@[simp] theorem State.attachSource_code (bs : List Byte) : (s.attachSource bs).code = s.code := rfl
@[simp] theorem State.attachSource_acc (bs : List Byte) : (s.attachSource bs).acc = s.acc := rfl
@[simp] theorem State.attachSource_accn (bs : List Byte) : (s.attachSource bs).accn = s.accn := rfl
@[simp] theorem State.attachSource_cur (bs : List Byte) : (s.attachSource bs).cur = s.cur := rfl
@[simp] theorem State.attachSource_cb (bs : List Byte) : (s.attachSource bs).cb = s.cb := rfl
@[simp] theorem State.attachSource_srcOk (bs : List Byte) : (s.attachSource bs).srcOk = true := rfl
@[simp] theorem State.attachSource_dstOk (bs : List Byte) :
    (s.attachSource bs).dstOk = s.dstOk := rfl
@[simp] theorem State.attachSource_istr (bs : List Byte) : (s.attachSource bs).istr = bs := rfl
@[simp] theorem State.attachSource_ostr (bs : List Byte) : (s.attachSource bs).ostr = s.ostr := rfl
@[simp] theorem State.attachSource_script (bs : List Byte) :
    (s.attachSource bs).script = s.script := rfl
@[simp] theorem State.attachSource_readData (bs : List Byte) :
    (s.attachSource bs).readData = s.readData := rfl
@[simp] theorem State.attachSource_draws (bs : List Byte) :
    (s.attachSource bs).draws = s.draws := rfl

/-! ### `detachSource` -/

@[simp] theorem State.detachSource_phase : (s.detachSource).phase = s.phase := rfl
@[simp] theorem State.detachSource_err : (s.detachSource).err = s.err := rfl
@[simp] theorem State.detachSource_tv : (s.detachSource).tv = s.tv := rfl
@[simp] theorem State.detachSource_cv : (s.detachSource).cv = s.cv := rfl
@[simp] theorem State.detachSource_freq : (s.detachSource).freq = s.freq := rfl
@[simp] theorem State.detachSource_nodes : (s.detachSource).nodes = s.nodes := rfl
@[simp] theorem State.detachSource_pq : (s.detachSource).pq = s.pq := rfl
@[simp] theorem State.detachSource_root : (s.detachSource).root = s.root := rfl
@[simp] theorem State.detachSource_code : (s.detachSource).code = s.code := rfl
@[simp] theorem State.detachSource_acc : (s.detachSource).acc = s.acc := rfl
@[simp] theorem State.detachSource_accn : (s.detachSource).accn = s.accn := rfl
@[simp] theorem State.detachSource_cur : (s.detachSource).cur = s.cur := rfl
@[simp] theorem State.detachSource_cb : (s.detachSource).cb = s.cb := rfl
@[simp] theorem State.detachSource_srcOk : (s.detachSource).srcOk = false := rfl
@[simp] theorem State.detachSource_dstOk : (s.detachSource).dstOk = s.dstOk := rfl
@[simp] theorem State.detachSource_istr : (s.detachSource).istr = [] := rfl
@[simp] theorem State.detachSource_ostr : (s.detachSource).ostr = s.ostr := rfl
@[simp] theorem State.detachSource_script : (s.detachSource).script = s.script := rfl
@[simp] theorem State.detachSource_readData : (s.detachSource).readData = s.readData := rfl
@[simp] theorem State.detachSource_draws : (s.detachSource).draws = s.draws := rfl

/-! ### `attachDest` -/

@[simp] theorem State.attachDest_phase : (s.attachDest).phase = s.phase := rfl
@[simp] theorem State.attachDest_err : (s.attachDest).err = s.err := rfl
@[simp] theorem State.attachDest_tv : (s.attachDest).tv = s.tv := rfl
@[simp] theorem State.attachDest_cv : (s.attachDest).cv = s.cv := rfl
@[simp] theorem State.attachDest_freq : (s.attachDest).freq = s.freq := rfl
@[simp] theorem State.attachDest_nodes : (s.attachDest).nodes = s.nodes := rfl
@[simp] theorem State.attachDest_pq : (s.attachDest).pq = s.pq := rfl
@[simp] theorem State.attachDest_root : (s.attachDest).root = s.root := rfl
@[simp] theorem State.attachDest_code : (s.attachDest).code = s.code := rfl
@[simp] theorem State.attachDest_acc : (s.attachDest).acc = s.acc := rfl
@[simp] theorem State.attachDest_accn : (s.attachDest).accn = s.accn := rfl
@[simp] theorem State.attachDest_cur : (s.attachDest).cur = s.cur := rfl
@[simp] theorem State.attachDest_cb : (s.attachDest).cb = s.cb := rfl
@[simp] theorem State.attachDest_srcOk : (s.attachDest).srcOk = s.srcOk := rfl
@[simp] theorem State.attachDest_dstOk : (s.attachDest).dstOk = true := rfl
@[simp] theorem State.attachDest_istr : (s.attachDest).istr = s.istr := rfl
@[simp] theorem State.attachDest_ostr : (s.attachDest).ostr = [] := rfl
@[simp] theorem State.attachDest_script : (s.attachDest).script = s.script := rfl
@[simp] theorem State.attachDest_readData : (s.attachDest).readData = s.readData := rfl
@[simp] theorem State.attachDest_draws : (s.attachDest).draws = s.draws := rfl

/-! ### `detachDest` -/

@[simp] theorem State.detachDest_phase : (s.detachDest).phase = s.phase := rfl
@[simp] theorem State.detachDest_err : (s.detachDest).err = s.err := rfl
@[simp] theorem State.detachDest_tv : (s.detachDest).tv = s.tv := rfl
@[simp] theorem State.detachDest_cv : (s.detachDest).cv = s.cv := rfl
@[simp] theorem State.detachDest_freq : (s.detachDest).freq = s.freq := rfl
@[simp] theorem State.detachDest_nodes : (s.detachDest).nodes = s.nodes := rfl
@[simp] theorem State.detachDest_pq : (s.detachDest).pq = s.pq := rfl
@[simp] theorem State.detachDest_root : (s.detachDest).root = s.root := rfl
@[simp] theorem State.detachDest_code : (s.detachDest).code = s.code := rfl
@[simp] theorem State.detachDest_acc : (s.detachDest).acc = s.acc := rfl
@[simp] theorem State.detachDest_accn : (s.detachDest).accn = s.accn := rfl
@[simp] theorem State.detachDest_cur : (s.detachDest).cur = s.cur := rfl
@[simp] theorem State.detachDest_cb : (s.detachDest).cb = s.cb := rfl
@[simp] theorem State.detachDest_srcOk : (s.detachDest).srcOk = s.srcOk := rfl
@[simp] theorem State.detachDest_dstOk : (s.detachDest).dstOk = false := rfl
@[simp] theorem State.detachDest_istr : (s.detachDest).istr = s.istr := rfl
@[simp] theorem State.detachDest_ostr : (s.detachDest).ostr = s.ostr := rfl
@[simp] theorem State.detachDest_script : (s.detachDest).script = s.script := rfl
@[simp] theorem State.detachDest_readData : (s.detachDest).readData = s.readData := rfl
@[simp] theorem State.detachDest_draws : (s.detachDest).draws = s.draws := rfl

/-! ### `stopScript` -/

@[simp] theorem State.stopScript_phase : (s.stopScript).phase = s.phase := rfl
@[simp] theorem State.stopScript_err : (s.stopScript).err = s.err := rfl
@[simp] theorem State.stopScript_tv : (s.stopScript).tv = s.tv := rfl
@[simp] theorem State.stopScript_cv : (s.stopScript).cv = s.cv := rfl
@[simp] theorem State.stopScript_freq : (s.stopScript).freq = s.freq := rfl
@[simp] theorem State.stopScript_nodes : (s.stopScript).nodes = s.nodes := rfl
@[simp] theorem State.stopScript_pq : (s.stopScript).pq = s.pq := rfl
@[simp] theorem State.stopScript_root : (s.stopScript).root = s.root := rfl
@[simp] theorem State.stopScript_code : (s.stopScript).code = s.code := rfl
@[simp] theorem State.stopScript_acc : (s.stopScript).acc = s.acc := rfl
@[simp] theorem State.stopScript_accn : (s.stopScript).accn = s.accn := rfl
@[simp] theorem State.stopScript_cur : (s.stopScript).cur = s.cur := rfl
@[simp] theorem State.stopScript_cb : (s.stopScript).cb = s.cb := rfl
@[simp] theorem State.stopScript_srcOk : (s.stopScript).srcOk = s.srcOk := rfl
@[simp] theorem State.stopScript_dstOk : (s.stopScript).dstOk = s.dstOk := rfl
@[simp] theorem State.stopScript_istr : (s.stopScript).istr = s.istr := rfl
@[simp] theorem State.stopScript_ostr : (s.stopScript).ostr = s.ostr := rfl
@[simp] theorem State.stopScript_script : (s.stopScript).script = [] := rfl
@[simp] theorem State.stopScript_readData : (s.stopScript).readData = s.readData := rfl
@[simp] theorem State.stopScript_draws : (s.stopScript).draws = s.draws := rfl

/-! ### `setIstr` -/

@[simp] theorem State.setIstr_phase (bs : List Byte) : (s.setIstr bs).phase = s.phase := rfl
@[simp] theorem State.setIstr_err (bs : List Byte) : (s.setIstr bs).err = s.err := rfl
@[simp] theorem State.setIstr_tv (bs : List Byte) : (s.setIstr bs).tv = s.tv := rfl
@[simp] theorem State.setIstr_cv (bs : List Byte) : (s.setIstr bs).cv = s.cv := rfl
@[simp] theorem State.setIstr_freq (bs : List Byte) : (s.setIstr bs).freq = s.freq := rfl
@[simp] theorem State.setIstr_nodes (bs : List Byte) : (s.setIstr bs).nodes = s.nodes := rfl
@[simp] theorem State.setIstr_pq (bs : List Byte) : (s.setIstr bs).pq = s.pq := rfl
@[simp] theorem State.setIstr_root (bs : List Byte) : (s.setIstr bs).root = s.root := rfl
@[simp] theorem State.setIstr_code (bs : List Byte) : (s.setIstr bs).code = s.code := rfl
@[simp] theorem State.setIstr_acc (bs : List Byte) : (s.setIstr bs).acc = s.acc := rfl
@[simp] theorem State.setIstr_accn (bs : List Byte) : (s.setIstr bs).accn = s.accn := rfl
@[simp] theorem State.setIstr_cur (bs : List Byte) : (s.setIstr bs).cur = s.cur := rfl
@[simp] theorem State.setIstr_cb (bs : List Byte) : (s.setIstr bs).cb = s.cb := rfl
@[simp] theorem State.setIstr_srcOk (bs : List Byte) : (s.setIstr bs).srcOk = s.srcOk := rfl
@[simp] theorem State.setIstr_dstOk (bs : List Byte) : (s.setIstr bs).dstOk = s.dstOk := rfl
@[simp] theorem State.setIstr_istr (bs : List Byte) : (s.setIstr bs).istr = bs := rfl
@[simp] theorem State.setIstr_ostr (bs : List Byte) : (s.setIstr bs).ostr = s.ostr := rfl
@[simp] theorem State.setIstr_script (bs : List Byte) : (s.setIstr bs).script = s.script := rfl
@[simp] theorem State.setIstr_readData (bs : List Byte) : (s.setIstr bs).readData = s.readData := rfl
@[simp] theorem State.setIstr_draws (bs : List Byte) : (s.setIstr bs).draws = s.draws := rfl

/-! ### `setNodes` -/

@[simp] theorem State.setNodes_phase (rs : List Node) : (s.setNodes rs).phase = s.phase := rfl
@[simp] theorem State.setNodes_err (rs : List Node) : (s.setNodes rs).err = s.err := rfl
@[simp] theorem State.setNodes_tv (rs : List Node) : (s.setNodes rs).tv = s.tv := rfl
@[simp] theorem State.setNodes_cv (rs : List Node) : (s.setNodes rs).cv = s.cv := rfl
@[simp] theorem State.setNodes_freq (rs : List Node) : (s.setNodes rs).freq = s.freq := rfl
@[simp] theorem State.setNodes_nodes (rs : List Node) : (s.setNodes rs).nodes = rs := rfl
@[simp] theorem State.setNodes_pq (rs : List Node) : (s.setNodes rs).pq = s.pq := rfl
@[simp] theorem State.setNodes_root (rs : List Node) : (s.setNodes rs).root = s.root := rfl
@[simp] theorem State.setNodes_code (rs : List Node) : (s.setNodes rs).code = s.code := rfl
@[simp] theorem State.setNodes_acc (rs : List Node) : (s.setNodes rs).acc = s.acc := rfl
@[simp] theorem State.setNodes_accn (rs : List Node) : (s.setNodes rs).accn = s.accn := rfl
@[simp] theorem State.setNodes_cur (rs : List Node) : (s.setNodes rs).cur = s.cur := rfl
@[simp] theorem State.setNodes_cb (rs : List Node) : (s.setNodes rs).cb = s.cb := rfl
@[simp] theorem State.setNodes_srcOk (rs : List Node) : (s.setNodes rs).srcOk = s.srcOk := rfl
@[simp] theorem State.setNodes_dstOk (rs : List Node) : (s.setNodes rs).dstOk = s.dstOk := rfl
@[simp] theorem State.setNodes_istr (rs : List Node) : (s.setNodes rs).istr = s.istr := rfl
@[simp] theorem State.setNodes_ostr (rs : List Node) : (s.setNodes rs).ostr = s.ostr := rfl
@[simp] theorem State.setNodes_script (rs : List Node) : (s.setNodes rs).script = s.script := rfl
@[simp] theorem State.setNodes_readData (rs : List Node) : (s.setNodes rs).readData = s.readData := rfl
@[simp] theorem State.setNodes_draws (rs : List Node) : (s.setNodes rs).draws = s.draws := rfl

/-! ### `setPq` -/

@[simp] theorem State.setPq_phase (ns : List NodeIdx) : (s.setPq ns).phase = s.phase := rfl
@[simp] theorem State.setPq_err (ns : List NodeIdx) : (s.setPq ns).err = s.err := rfl
@[simp] theorem State.setPq_tv (ns : List NodeIdx) : (s.setPq ns).tv = s.tv := rfl
@[simp] theorem State.setPq_cv (ns : List NodeIdx) : (s.setPq ns).cv = s.cv := rfl
@[simp] theorem State.setPq_freq (ns : List NodeIdx) : (s.setPq ns).freq = s.freq := rfl
@[simp] theorem State.setPq_nodes (ns : List NodeIdx) : (s.setPq ns).nodes = s.nodes := rfl
@[simp] theorem State.setPq_pq (ns : List NodeIdx) : (s.setPq ns).pq = ns := rfl
@[simp] theorem State.setPq_root (ns : List NodeIdx) : (s.setPq ns).root = s.root := rfl
@[simp] theorem State.setPq_code (ns : List NodeIdx) : (s.setPq ns).code = s.code := rfl
@[simp] theorem State.setPq_acc (ns : List NodeIdx) : (s.setPq ns).acc = s.acc := rfl
@[simp] theorem State.setPq_accn (ns : List NodeIdx) : (s.setPq ns).accn = s.accn := rfl
@[simp] theorem State.setPq_cur (ns : List NodeIdx) : (s.setPq ns).cur = s.cur := rfl
@[simp] theorem State.setPq_cb (ns : List NodeIdx) : (s.setPq ns).cb = s.cb := rfl
@[simp] theorem State.setPq_srcOk (ns : List NodeIdx) : (s.setPq ns).srcOk = s.srcOk := rfl
@[simp] theorem State.setPq_dstOk (ns : List NodeIdx) : (s.setPq ns).dstOk = s.dstOk := rfl
@[simp] theorem State.setPq_istr (ns : List NodeIdx) : (s.setPq ns).istr = s.istr := rfl
@[simp] theorem State.setPq_ostr (ns : List NodeIdx) : (s.setPq ns).ostr = s.ostr := rfl
@[simp] theorem State.setPq_script (ns : List NodeIdx) : (s.setPq ns).script = s.script := rfl
@[simp] theorem State.setPq_readData (ns : List NodeIdx) : (s.setPq ns).readData = s.readData := rfl
@[simp] theorem State.setPq_draws (ns : List NodeIdx) : (s.setPq ns).draws = s.draws := rfl

/-! ### `setRoot` -/

@[simp] theorem State.setRoot_phase (n : NodeIdx) : (s.setRoot n).phase = s.phase := rfl
@[simp] theorem State.setRoot_err (n : NodeIdx) : (s.setRoot n).err = s.err := rfl
@[simp] theorem State.setRoot_tv (n : NodeIdx) : (s.setRoot n).tv = s.tv := rfl
@[simp] theorem State.setRoot_cv (n : NodeIdx) : (s.setRoot n).cv = s.cv := rfl
@[simp] theorem State.setRoot_freq (n : NodeIdx) : (s.setRoot n).freq = s.freq := rfl
@[simp] theorem State.setRoot_nodes (n : NodeIdx) : (s.setRoot n).nodes = s.nodes := rfl
@[simp] theorem State.setRoot_pq (n : NodeIdx) : (s.setRoot n).pq = s.pq := rfl
@[simp] theorem State.setRoot_root (n : NodeIdx) : (s.setRoot n).root = n := rfl
@[simp] theorem State.setRoot_code (n : NodeIdx) : (s.setRoot n).code = s.code := rfl
@[simp] theorem State.setRoot_acc (n : NodeIdx) : (s.setRoot n).acc = s.acc := rfl
@[simp] theorem State.setRoot_accn (n : NodeIdx) : (s.setRoot n).accn = s.accn := rfl
@[simp] theorem State.setRoot_cur (n : NodeIdx) : (s.setRoot n).cur = s.cur := rfl
@[simp] theorem State.setRoot_cb (n : NodeIdx) : (s.setRoot n).cb = s.cb := rfl
@[simp] theorem State.setRoot_srcOk (n : NodeIdx) : (s.setRoot n).srcOk = s.srcOk := rfl
@[simp] theorem State.setRoot_dstOk (n : NodeIdx) : (s.setRoot n).dstOk = s.dstOk := rfl
@[simp] theorem State.setRoot_istr (n : NodeIdx) : (s.setRoot n).istr = s.istr := rfl
@[simp] theorem State.setRoot_ostr (n : NodeIdx) : (s.setRoot n).ostr = s.ostr := rfl
@[simp] theorem State.setRoot_script (n : NodeIdx) : (s.setRoot n).script = s.script := rfl
@[simp] theorem State.setRoot_readData (n : NodeIdx) : (s.setRoot n).readData = s.readData := rfl
@[simp] theorem State.setRoot_draws (n : NodeIdx) : (s.setRoot n).draws = s.draws := rfl

/-! ### Writing a field again, or with what it holds -/

@[simp] theorem State.setIstr_self : s.setIstr s.istr = s := rfl
@[simp] theorem State.setNodes_self : s.setNodes s.nodes = s := rfl
@[simp] theorem State.setPq_self : s.setPq s.pq = s := rfl
@[simp] theorem State.setPhase_self : s.setPhase s.phase = s := rfl
@[simp] theorem State.setIstr_setIstr (a b : List Byte) : (s.setIstr a).setIstr b = s.setIstr b := rfl
@[simp] theorem State.setNodes_setNodes (a b : List Node) :
    (s.setNodes a).setNodes b = s.setNodes b := rfl
@[simp] theorem State.setPq_setPq (a b : List NodeIdx) : (s.setPq a).setPq b = s.setPq b := rfl
@[simp] theorem State.setPhase_setPhase (a b : Phase) :
    (s.setPhase a).setPhase b = s.setPhase b := rfl

end Sys2Proof.Machine
end

