-- ==== Sys2Proof/Laws/Table.lean ====
section
/-! SUPPORT. The laws of a memory of records: read after write, equality by contents, the constant
memory, and the list of all symbols. -/

namespace Sys2Proof

variable {α : Type}

@[simp] theorem Table.get_const (a : α) (n k : Nat) : (Table.const a n).get k = a := by
  induction n generalizing k with
  | zero => rfl
  | succ n ih => simp [Table.const, Table.get, ih]

@[simp] theorem Table.get_set_self {n : Nat} (t : Table α n) (k : Nat) (v : α) :
    (t.set k v).get k = v := by
  induction t generalizing k with
  | leaf => rfl
  | node e o ihe iho => simp only [Table.set]; split <;> simp_all [Table.get]

theorem Table.get_set_ne {n : Nat} (t : Table α n) (k j : Nat) (v : α) (hk : k < 2 ^ n)
    (hj : j < 2 ^ n) (h : j ≠ k) : (t.set k v).get j = t.get j := by
  induction t generalizing k j with
  | leaf => simp at hk hj; omega
  | node e o ihe iho =>
    simp only [Table.set]
    split <;> simp only [Table.get] <;> split
    · apply ihe <;> omega
    · rfl
    · rfl
    · apply iho <;> omega

theorem Table.ext_get {n : Nat} (t u : Table α n) (h : ∀ k < 2 ^ n, t.get k = u.get k) : t = u := by
  induction t with
  | leaf a => cases u; simpa [Table.get] using h 0 (by simp)
  | node e o ihe iho =>
    cases u with
    | node e' o' =>
      have he := ihe e' fun k hk => by simpa [Table.get] using h (2 * k) (by omega)
      have ho := iho o' fun k hk => by
        have h1 : (2 * k + 1) % 2 = 1 := by omega
        have h2 : (2 * k + 1) / 2 = k := by omega
        simpa [Table.get, h1, h2] using h (2 * k + 1) (by omega)
      rw [he, ho]

@[simp] theorem Table.atByte_const (a : α) (b : Byte) : (Table.const a 8).atByte b = a :=
  Table.get_const a 8 b.toNat

@[simp] theorem Table.atByte_putByte_self (t : ByteTable α) (b : Byte) (v : α) :
    (t.putByte b v).atByte b = v :=
  Table.get_set_self t b.toNat v

theorem Table.atByte_putByte_ne (t : ByteTable α) {b c : Byte} (v : α) (h : c ≠ b) :
    (t.putByte b v).atByte c = t.atByte c :=
  Table.get_set_ne t b.toNat c.toNat v b.isLt c.isLt fun e => h (BitVec.eq_of_toNat_eq e)

theorem Table.atByte_putByte (t : ByteTable α) (b c : Byte) (v : α) :
    (t.putByte b v).atByte c = if c = b then v else t.atByte c := by
  split
  · subst c; exact Table.atByte_putByte_self t b v
  · exact Table.atByte_putByte_ne t v ‹_›

theorem Table.ext_atByte (t u : ByteTable α) (h : ∀ b : Byte, t.atByte b = u.atByte b) : t = u := by
  apply Table.ext_get
  intro k hk
  have hm : k % 256 = k := Nat.mod_eq_of_lt hk
  simpa [Table.atByte, hm] using h (BitVec.ofNat 8 k)

@[simp] theorem mem_allSymbols (b : Byte) : b ∈ allSymbols :=
  List.mem_map.mpr ⟨b.toNat, List.mem_range.mpr b.isLt, by simp⟩

@[simp] theorem length_allSymbols : allSymbols.length = 256 := by
  simp [allSymbols]

theorem nodup_allSymbols : allSymbols.Nodup := by
  refine List.Nodup.map_on ?_ List.nodup_range
  intro x hx y hy h
  have hn := congrArg BitVec.toNat h
  rw [List.mem_range] at hx hy
  simpa [Nat.mod_eq_of_lt hx, Nat.mod_eq_of_lt hy] using hn

end Sys2Proof
end

