-- ==== Sys2Proof/Laws/Ops.lean ====
section
/-! SUPPORT. What each shared operation can do, once: the stream primitives, acceptance, running a
command, the stream loop, and allocation. -/

namespace Sys2Proof.Machine

open Sys2Proof.Safety

variable (s : State)

/-! ### Accessors -/

@[simp] theorem State.freqAt_setFreq_self (b : Byte) (v : Count) : (s.setFreq b v).freqAt b = v :=
  Table.atByte_putByte_self s.freq b v

theorem State.freqAt_setFreq (b c : Byte) (v : Count) :
    (s.setFreq b v).freqAt c = if c = b then v else s.freqAt c :=
  Table.atByte_putByte s.freq b c v

@[simp] theorem State.codeAt_setCode_self (b : Byte) (r : CodeRec) :
    (s.setCode b r).codeAt b = r :=
  Table.atByte_putByte_self s.code b r

theorem State.codeAt_setCode (b c : Byte) (r : CodeRec) :
    (s.setCode b r).codeAt c = if c = b then r else s.codeAt c :=
  Table.atByte_putByte s.code b c r

theorem State.nodeAt_congr {s t : State} (h : s.nodes = t.nodes) (n : NodeIdx) :
    s.nodeAt n = t.nodeAt n := by
  simp [State.nodeAt, h]

theorem State.isLeaf_congr {s t : State} (h : s.nodes = t.nodes) (n : NodeIdx) :
    s.isLeaf n = t.isLeaf n := by
  simp [State.isLeaf, State.nodeAt, h]

theorem State.weight_congr {s t : State} (h : s.nodes = t.nodes) (n : NodeIdx) :
    s.weight n = t.weight n := by
  simp [State.weight, State.nodeAt, h]

theorem State.child_congr {s t : State} (h : s.nodes = t.nodes) (n : NodeIdx) (c : Bool) :
    s.child n c = t.child n c := by
  simp [State.child, State.nodeAt, h]

theorem countBytes_pos (cb : Config.CountBytes) : 0 < countBytes cb :=
  Nat.succ_pos _

theorem countBytes_le (cb : Config.CountBytes) : countBytes cb ≤ 8 :=
  cb.isLt

/-- No count of `8*CB` bits reaches `2^64`, so adding one below `CMAX` does not wrap. -/
theorem countMax_lt (cb : Config.CountBytes) : countMax cb < 2 ^ 64 := by
  have hb : 8 * countBytes cb ≤ 64 := by have := countBytes_le cb; omega
  have hp : 2 ^ (8 * countBytes cb) ≤ 2 ^ 64 := Nat.pow_le_pow_right (by omega) hb
  have h0 : 0 < 2 ^ (8 * countBytes cb) := Nat.pow_pos (by omega)
  unfold countMax
  omega

/-! ### Stream primitives -/

/-- `SrcRead()` answers `EOF` and changes nothing, or removes and returns the first byte. -/
theorem State.srcRead_cases :
    (s.istr = [] ∧ s.srcRead = (none, s)) ∨
      ∃ b rest, s.istr = b :: rest ∧ s.srcRead = (some b, s.setIstr rest) := by
  cases h : s.istr with
  | nil => exact .inl ⟨rfl, by simp [State.srcRead, h]⟩
  | cons b rest => exact .inr ⟨b, rest, rfl, by simp [State.srcRead, h]⟩

theorem State.srcRead_nil {s : State} (h : s.istr = []) : s.srcRead = (none, s) := by
  simp [State.srcRead, h]

theorem State.srcRead_cons {s : State} {b : Byte} {rest : List Byte} (h : s.istr = b :: rest) :
    s.srcRead = (some b, s.setIstr rest) := by
  simp [State.srcRead, h]

/-! ### Acceptance -/

theorem State.busy_eq_false_iff :
    s.busy = false ↔ s.phase = .idle ∨ s.phase = .done ∨ s.phase = .error := by
  cases h : s.phase <;> simp [State.busy, h]

theorem State.busy_of_accepting {s : State} (h : Accepting s) : s.busy = false := by
  rw [State.busy_eq_false_iff]
  exact h.imp id .inl

/-- In `PHASE` 0 and 3 acceptance is lines 3 to 7 of 46_control.md R283. -/
theorem State.acceptance_of_accepting {s : State} (h : Accepting s) (c : Option Instr) :
    s.acceptance c = s.check c := by
  rcases h with h | h <;> simp [State.acceptance, h]

theorem State.acceptance_of_busy {s : State} (h : s.busy = true) (c : Option Instr) :
    s.acceptance c = .notTaken := by
  unfold State.busy at h
  split at h <;> simp_all [State.acceptance]

theorem State.acceptance_of_error {s : State} (h : s.phase = .error) {c : Option Instr}
    (hc : c ≠ some .clear) : s.acceptance c = .ignored := by
  simp [State.acceptance, h, hc]

@[simp] theorem State.check_clear : s.check (some .clear) = .runs .clear := by
  simp [State.check, needs, State.flagHolds]

@[simp] theorem State.check_build : s.check (some .build) = .runs .build := by
  simp [State.check, needs, State.flagHolds]

/-- A ready core accepts `CLEAR` (46_control.md R283). -/
theorem State.acceptance_clear {s : State} (h : s.busy = false) :
    s.acceptance (some .clear) = .runs .clear := by
  rcases s.busy_eq_false_iff.mp h with h | h | h <;> simp [State.acceptance, h]

/-- The check runs a command only when its flag and streams are there, and reports the first that is
not (46_control.md R283, 60_exceptions.md R310). -/
theorem State.check_cases (i : Instr) :
    (s.flagHolds (needs i).flag = false ∧ s.check (some i) = .raised .sequenceError) ∨
    (s.flagHolds (needs i).flag = true ∧ (needs i).source = true ∧ s.srcOk = false ∧
      s.check (some i) = .raised .sourceOpenFailure) ∨
    (s.flagHolds (needs i).flag = true ∧ ((needs i).source = true → s.srcOk = true) ∧
      (needs i).dest = true ∧ s.dstOk = false ∧
      s.check (some i) = .raised .destinationOpenFailure) ∨
    (s.flagHolds (needs i).flag = true ∧ ((needs i).source = true → s.srcOk = true) ∧
      ((needs i).dest = true → s.dstOk = true) ∧ s.check (some i) = .runs i) := by
  cases hf : s.flagHolds (needs i).flag <;> cases hs : (needs i).source <;>
    cases ho : s.srcOk <;> cases hd : (needs i).dest <;> cases hq : s.dstOk <;>
    simp [State.check, hf, hs, ho, hd, hq]

/-- A word that runs is the word that was offered. -/
theorem State.acceptance_runs_eq {s : State} {i j : Instr} (h : s.acceptance (some i) = .runs j) :
    j = i := by
  unfold State.acceptance at h
  split at h <;> (try split at h) <;> first
    | (rcases s.check_cases i with ⟨_, hc⟩ | ⟨_, _, _, hc⟩ | ⟨_, _, _, _, hc⟩ | ⟨_, _, _, hc⟩ <;>
        rw [hc] at h <;> cases h <;> rfl)
    | cases h

/-- The four things `runCommand` can do (46_control.md R283). -/
theorem runCommand_cases (i : Instr) (body : State → Result) :
    ((s.acceptance (some i) = .notTaken ∨ s.acceptance (some i) = .ignored) ∧
      runCommand i body s = .next s) ∨
    (∃ e, s.acceptance (some i) = .raised e ∧ runCommand i body s = .next (s.raise e)) ∨
    (s.acceptance (some i) = .runs i ∧ runCommand i body s = body (s.begin i)) := by
  unfold runCommand
  cases h : s.acceptance (some i) with
  | notTaken => exact .inl ⟨.inl rfl, rfl⟩
  | ignored => exact .inl ⟨.inr rfl, rfl⟩
  | raised e => exact .inr (.inl ⟨e, rfl, rfl⟩)
  | runs j => exact .inr (.inr ⟨by rw [State.acceptance_runs_eq h], rfl⟩)

theorem runCommand_of_runs {s : State} {i : Instr} (body : State → Result)
    (h : s.acceptance (some i) = .runs i) : runCommand i body s = body (s.begin i) := by
  simp [runCommand, h]

/-! ### The stream loop -/

theorem streamLoop_nil (body : Byte → State → Option Err × State) (finish : State → State)
    {s : State} (h : s.istr = []) : streamLoop body finish s.istr.length s = finish s := by
  simp [h, streamLoop]

/-- One turn of the loop on a source that is not empty. -/
theorem streamLoop_cons (body : Byte → State → Option Err × State) (finish : State → State)
    {s : State} {b : Byte} {rest : List Byte} (h : s.istr = b :: rest) :
    streamLoop body finish s.istr.length s =
      match body b (s.setIstr rest) with
      | (some e, s2) => s2.raise e
      | (none, s2) => streamLoop body finish rest.length s2 := by
  rcases hb : body b (s.setIstr rest) with ⟨_ | e, s2⟩ <;>
    simp [h, streamLoop, State.srcRead_cons h, hb]

/-! ### Allocation -/

/-- Allocation appends one record at index `NNODES`, or stops on a full arena (10_state.md R41). -/
theorem State.alloc_cases (r : Node) :
    (∃ h : s.nodes.length < 511,
      s.alloc r = .ok (⟨s.nodes.length, h⟩, s.setNodes (s.nodes ++ [r]))) ∨
    (511 ≤ s.nodes.length ∧ s.alloc r = .error .arenaFull) := by
  by_cases h : s.nodes.length < 511
  · exact .inl ⟨h, by simp [State.alloc, h]⟩
  · exact .inr ⟨by omega, by simp [State.alloc, h]⟩

theorem State.nodeAt_append_lt {s : State} {n : NodeIdx} (r : List Node)
    (h : n.val < s.nodes.length) :
    (s.setNodes (s.nodes ++ r)).nodeAt n = s.nodeAt n := by
  simp [State.nodeAt, List.getElem?_append_left h]

end Sys2Proof.Machine
end

