-- ==== Sys2Proof/Laws/PerInstr.lean ====
section
/-! SUPPORT. Statements made per command: its encoding is one word, legal, and decodes back to it
(spec/30_encoding.md R100, R101, R102, R103). -/

namespace Sys2Proof.Laws

/-- A command is well formed, its encoding is its one opcode word, that word is legal, and the decoder
gives the command back with the words after it. -/
def RoundTrip.Statement (i : Instr) : Prop :=
  i.wellFormed = true ∧ encode i = [opcode i] ∧ legalWord (opcode i) = true ∧
    ∀ rest : List Byte, decode (encode i ++ rest) = .ok (i, rest)

theorem RoundTrip.clear : RoundTrip.Statement .clear := ⟨rfl, rfl, rfl, fun _ => rfl⟩
theorem RoundTrip.analyze : RoundTrip.Statement .analyze := ⟨rfl, rfl, rfl, fun _ => rfl⟩
theorem RoundTrip.build : RoundTrip.Statement .build := ⟨rfl, rfl, rfl, fun _ => rfl⟩
theorem RoundTrip.gencode : RoundTrip.Statement .gencode := ⟨rfl, rfl, rfl, fun _ => rfl⟩
theorem RoundTrip.wrhdr : RoundTrip.Statement .wrhdr := ⟨rfl, rfl, rfl, fun _ => rfl⟩
theorem RoundTrip.encode : RoundTrip.Statement .encode := ⟨rfl, rfl, rfl, fun _ => rfl⟩
theorem RoundTrip.rdhdr : RoundTrip.Statement .rdhdr := ⟨rfl, rfl, rfl, fun _ => rfl⟩
theorem RoundTrip.decode : RoundTrip.Statement .decode := ⟨rfl, rfl, rfl, fun _ => rfl⟩

/-- The rows of the opcode map are pairwise disjoint: no word matches two of them. -/
theorem opcodeMap_disjoint :
    opcodeMap.Pairwise (fun a b => a.pattern &&& b.mask ≠ b.pattern) := by
  decide

/-- A word decodes to a command exactly when it is that command's opcode. -/
theorem decodeWord_eq_some_iff (w : Byte) (i : Instr) : decodeWord w = some i ↔ w = opcode i := by
  revert w
  cases i <;> decide +kernel

end Sys2Proof.Laws
end

