-- ==== Sys2Proof/Laws/Streams.lean ====
section
/-! SUPPORT. What the encoder's and the decoder's steps can do, once. -/

namespace Sys2Proof.Machine

variable (s : State)

theorem codeBits_length (r : CodeRec) : (codeBits r).length = r.len.toNat := by
  simp [codeBits]

theorem byteBits_length (b : Byte) : (byteBits b).length = 8 := by
  simp [byteBits]

theorem pathNumber_append (p : List Bool) (c : Bool) :
    pathNumber (p ++ [c]) = 2 * pathNumber p + c.toNat := by
  simp [pathNumber]

/-- The number of a path fits its length (10_state.md R45). -/
theorem pathNumber_lt (p : List Bool) : pathNumber p < 2 ^ p.length := by
  induction p using List.reverseRecOn with
  | nil => simp [pathNumber]
  | append_singleton p c ih =>
    rw [pathNumber_append]
    cases c <;> simp [Nat.pow_succ] <;> omega

/-- `v[i] <- c` changes bit `i` alone. -/
theorem getLsbD_setBit (v : Byte) (i k : Nat) (c : Bool) (hi : i < 8) :
    (setBit v i c).getLsbD k = if k = i then c else v.getLsbD k := by
  have hs : ∀ j : Nat, (1#8 <<< i).getLsbD j = (decide (j < 8) && decide (j = i)) := by
    intro j
    rcases Nat.lt_trichotomy j i with h | h | h
    · simp [h, Nat.ne_of_lt h]
    · subst h; simp
    · have h0 : j - i ≠ 0 := by omega
      have h1 : j ≠ i := by omega
      simp [h0, h1]
  unfold setBit
  by_cases hk : k < 8
  · cases c <;> by_cases he : k = i <;> simp [hs, hk, he] <;> omega
  · have hz : ∀ w : Byte, w.getLsbD k = false := fun w => BitVec.getLsbD_of_ge w k (by omega)
    rw [hz, hz, if_neg (by omega)]

theorem State.dstWriteAll_eq (bs : List Byte) :
    s.dstWriteAll bs = { s with ostr := s.ostr ++ bs } := by
  induction bs generalizing s with
  | nil => simp [State.dstWriteAll]
  | cons b bs ih =>
    have h : s.dstWriteAll (b :: bs) = (s.dstWrite b).dstWriteAll bs := rfl
    rw [h, ih]
    simp [State.dstWrite]

@[simp] theorem State.putbits_nil : s.putbits [] = s := rfl

@[simp] theorem State.putbits_cons (c : Bool) (cs : List Bool) :
    s.putbits (c :: cs) = (s.putbit c).putbits cs := rfl

theorem State.putbits_append (cs ds : List Bool) :
    s.putbits (cs ++ ds) = (s.putbits cs).putbits ds := by
  simp [State.putbits]

/-- A bit goes into the accumulator, and out with it when it is the eighth (44_encoder.md R225). -/
theorem State.putbit_cases (c : Bool) :
    (s.accn = 7 ∧ s.putbit c =
      { s with ostr := s.ostr ++ [setBit s.acc 0 c], acc := 0, accn := 0 }) ∨
    (s.accn.val < 7 ∧ s.putbit c =
      { s with acc := setBit s.acc (7 - s.accn.val) c, accn := s.accn + 1 }) := by
  by_cases h : s.accn = 7
  · exact .inl ⟨h, by simp [State.putbit, h, State.clearAcc, State.dstWrite]⟩
  · have h7 : s.accn.val ≠ 7 := fun e => h (Fin.ext e)
    exact .inr ⟨by omega, by simp [State.putbit, h]⟩

/-- `putbit` writes only the accumulator and the destination. -/
theorem State.putbits_frame (cs : List Bool) :
    s.putbits cs = { s with acc := (s.putbits cs).acc, accn := (s.putbits cs).accn,
                            ostr := (s.putbits cs).ostr } := by
  induction cs generalizing s with
  | nil => rfl
  | cons c cs ih =>
    rw [State.putbits_cons, ih]
    rcases s.putbit_cases c with ⟨_, h⟩ | ⟨_, h⟩ <;> rw [h]

/-- One edge of the decoder's walk writes only the cursor and the destination (45_decoder.md R256). -/
theorem State.walkBit_cases (c : Bool) :
    (s.isLeaf (s.child s.cur c) = true ∧ s.walkBit c =
      { s with cur := s.root, ostr := s.ostr ++ [(s.nodeAt (s.child s.cur c)).sym] }) ∨
    (s.isLeaf (s.child s.cur c) = false ∧ s.walkBit c = { s with cur := s.child s.cur c }) := by
  cases h : s.isLeaf (s.child s.cur c)
  · exact .inr ⟨rfl, by simp [State.walkBit, h, State.setCur]⟩
  · exact .inl ⟨rfl, by simp [State.walkBit, h, State.setCur, State.dstWrite]⟩

@[simp] theorem State.walkBits_nil : s.walkBits [] = s := rfl

@[simp] theorem State.walkBits_cons (c : Bool) (cs : List Bool) :
    s.walkBits (c :: cs) = (s.walkBit c).walkBits cs := rfl

theorem State.walkBits_append (cs ds : List Bool) :
    s.walkBits (cs ++ ds) = (s.walkBits cs).walkBits ds := by
  simp [State.walkBits]

theorem State.walkBits_frame (cs : List Bool) :
    s.walkBits cs = { s with cur := (s.walkBits cs).cur, ostr := (s.walkBits cs).ostr } := by
  induction cs generalizing s with
  | nil => rfl
  | cons c cs ih =>
    rw [State.walkBits_cons, ih]
    rcases s.walkBit_cases c with ⟨_, h⟩ | ⟨_, h⟩ <;> rw [h]

/-- Reading a count consumes its bytes, or all of `ISTR` if they are not there
(45_decoder.md R251, R252). -/
theorem readCount_cases (left j : Nat) (v : Count) :
    (left ≤ s.istr.length ∧ ∃ w, readCount left j v s =
      (some w, s.setIstr (s.istr.drop left))) ∨
    (s.istr.length < left ∧ readCount left j v s = (none, s.setIstr [])) := by
  induction left generalizing j v s with
  | zero => exact .inl ⟨Nat.zero_le _, v, by simp [readCount]⟩
  | succ left ih =>
    rcases s.srcRead_cases with ⟨hi, hr⟩ | ⟨b, rest, hi, hr⟩
    · refine .inr ⟨by simp [hi], ?_⟩
      have hs : s = s.setIstr [] := by rw [← hi, State.setIstr_self]
      simp only [readCount, hr]
      rw [← hs]
    · rcases ih (s.setIstr rest) (j + 1) (v + countPart b j) with ⟨hl, w, hw⟩ | ⟨hl, hw⟩ <;>
        rw [State.setIstr_istr] at hl
      · exact .inl ⟨by simp [hi, hl], w, by simp [readCount, hr, hw, hi]⟩
      · exact .inr ⟨by simp [hi, hl], by simp [readCount, hr, hw]⟩

end Sys2Proof.Machine
end

