-- ==== Sys2Proof/Laws/Tree.lean ====
section
/-! SUPPORT. What the priority order's micro-operations, the load and merge steps of `BUILD` and the
walk of `GENCODE` can do, once. -/

namespace Sys2Proof.Machine

variable (s : State)

/-! ### The priority order -/

theorem State.insertPos_le (n : NodeIdx) : s.insertPos n ≤ s.pq.length :=
  (List.takeWhile_prefix _).length_le

/-- `insert` writes only the order, which grows by the new entry at its place, or stops on a full
order (41_priority_order.md R161). -/
theorem State.insert_cases (n : NodeIdx) :
    (s.pq.length < 256 ∧
      s.insert n =
        .ok (s.setPq (s.pq.take (s.insertPos n) ++ n :: s.pq.drop (s.insertPos n)))) ∨
    (256 ≤ s.pq.length ∧ s.insert n = .error .orderFull) := by
  by_cases h : s.pq.length < 256
  · exact .inl ⟨h, by simp [State.insert, h]⟩
  · exact .inr ⟨by omega, by simp [State.insert, h]⟩

theorem State.insert_ok {s t : State} {n : NodeIdx} (h : s.insert n = .ok t) :
    s.pq.length < 256 ∧
      t = s.setPq (s.pq.take (s.insertPos n) ++ n :: s.pq.drop (s.insertPos n)) := by
  rcases s.insert_cases n with ⟨hl, he⟩ | ⟨_, he⟩ <;> rw [he] at h <;> cases h
  exact ⟨hl, rfl⟩

theorem State.insert_length {s t : State} {n : NodeIdx} (h : s.insert n = .ok t) :
    t.pq.length = s.pq.length + 1 := by
  obtain ⟨-, rfl⟩ := State.insert_ok h
  have hp := s.insertPos_le n
  simp only [State.setPq_pq, List.length_append, List.length_take, List.length_cons,
    List.length_drop]
  omega

/-- The entries before and after the place of `insert` are the order itself. -/
theorem State.insert_split (n : NodeIdx) :
    s.pq.take (s.insertPos n) = s.pq.takeWhile (fun m => (s.weight m).toNat ≤ (s.weight n).toNat) ∧
    s.pq.drop (s.insertPos n) =
      s.pq.dropWhile (fun m => (s.weight m).toNat ≤ (s.weight n).toNat) := by
  have key : ∀ (p : NodeIdx → Bool) (l : List NodeIdx),
      l.take (l.takeWhile p).length = l.takeWhile p ∧
        l.drop (l.takeWhile p).length = l.dropWhile p := by
    intro p l
    induction l with
    | nil => simp
    | cons x l ih => by_cases hx : p x <;> simp [hx, ih]
  exact key _ _

theorem State.takeMinimum_cases :
    (s.pq = [] ∧ s.takeMinimum = (none, s)) ∨
      ∃ n rest, s.pq = n :: rest ∧ s.takeMinimum = (some n, s.setPq rest) := by
  cases h : s.pq with
  | nil => exact .inl ⟨rfl, by simp [State.takeMinimum, h]⟩
  | cons n rest => exact .inr ⟨n, rest, rfl, by simp [State.takeMinimum, h]⟩

theorem State.takeEntry_cons {s : State} {n : NodeIdx} {rest : List NodeIdx}
    (h : s.pq = n :: rest) : s.takeEntry = .ok (n, s.setPq rest) := by
  simp [State.takeEntry, State.takeMinimum, h]

theorem State.takeEntry_nil {s : State} (h : s.pq = []) : s.takeEntry = .error .orderEmpty := by
  simp [State.takeEntry, State.takeMinimum, h]

/-! ### The steps of `BUILD` -/

theorem loadSymbol_zero {s : State} {b : Byte} (h : s.freqAt b = 0) : loadSymbol s b = .ok s := by
  simp [loadSymbol, h]

theorem loadSymbol_nonzero {s : State} {b : Byte} (h : s.freqAt b ≠ 0)
    (hn : s.nodes.length < 511) :
    loadSymbol s b =
      (s.setNodes (s.nodes ++
        [{ kind := .leaf, sym := b, w := (s.freqAt b).setWidth 72, left := 0, right := 0 }])).insert
        ⟨s.nodes.length, hn⟩ := by
  rw [loadSymbol, if_pos h]
  simp [State.leaf, State.alloc, hn]

/-- The load step writes only the arena and the order. -/
theorem loadSymbol_frame {s t : State} {b : Byte} (h : loadSymbol s b = .ok t) :
    t = { s with nodes := t.nodes, pq := t.pq } := by
  by_cases hb : s.freqAt b = 0
  · rw [loadSymbol_zero hb] at h
    cases h; rfl
  · by_cases hn : s.nodes.length < 511
    · rw [loadSymbol_nonzero hb hn] at h
      obtain ⟨-, rfl⟩ := State.insert_ok h
      rfl
    · rw [loadSymbol, if_pos hb] at h
      simp [State.leaf, State.alloc, hn] at h

theorem loadSymbols_frame {bs : List Byte} {s t : State} (h : loadSymbols bs s = .ok t) :
    t = { s with nodes := t.nodes, pq := t.pq } := by
  induction bs generalizing s with
  | nil => cases h; rfl
  | cons b bs ih =>
    cases h1 : loadSymbol s b with
    | error f => simp [loadSymbols, h1] at h
    | ok s1 =>
      simp only [loadSymbols, h1] at h
      rw [ih h, loadSymbol_frame h1]

/-- A merge that succeeds took two entries, appended their parent and inserted it
(42_tree_builder.md R184). -/
theorem mergeOnce_ok {s t : State} (h : mergeOnce s = .ok t) :
    ∃ (a b : NodeIdx) (rest : List NodeIdx) (hn : s.nodes.length < 511),
      s.pq = a :: b :: rest ∧
        ((s.setPq rest).setNodes (s.nodes ++
          [{ kind := .internal, sym := 0, w := s.weight a + s.weight b, left := a, right := b }])).insert
          ⟨s.nodes.length, hn⟩ = .ok t := by
  rcases hpq : s.pq with _ | ⟨a, _ | ⟨b, rest⟩⟩
  · simp only [mergeOnce, State.takeEntry_nil hpq] at h
    cases h
  · have h2 : (s.setPq []).takeEntry = .error .orderEmpty := State.takeEntry_nil rfl
    simp only [mergeOnce, State.takeEntry_cons hpq, h2] at h
    cases h
  · have h2 : (s.setPq (b :: rest)).takeEntry = .ok (b, s.setPq rest) := State.takeEntry_cons rfl
    have hw : ∀ n, (s.setPq rest).weight n = s.weight n := fun _ => rfl
    simp only [mergeOnce, State.takeEntry_cons hpq, h2, State.internal, hw] at h
    rcases (s.setPq rest).alloc_cases
      { kind := .internal, sym := 0, w := s.weight a + s.weight b, left := a, right := b }
      with ⟨hn, ha⟩ | ⟨_, ha⟩
    · rw [ha] at h
      exact ⟨a, b, rest, hn, rfl, h⟩
    · rw [ha] at h
      cases h

theorem mergeOnce_frame {s t : State} (h : mergeOnce s = .ok t) :
    t = { s with nodes := t.nodes, pq := t.pq } := by
  obtain ⟨a, b, rest, hn, -, hi⟩ := mergeOnce_ok h
  obtain ⟨-, rfl⟩ := State.insert_ok hi
  rfl

/-- A merge lowers `PQLEN` by one and raises `NNODES` by one (42_tree_builder.md R184). -/
theorem mergeOnce_lengths {s t : State} (h : mergeOnce s = .ok t) :
    t.pq.length + 1 = s.pq.length ∧ t.nodes.length = s.nodes.length + 1 := by
  obtain ⟨a, b, rest, hn, hpq, hi⟩ := mergeOnce_ok h
  have hl := State.insert_length hi
  obtain ⟨-, rfl⟩ := State.insert_ok hi
  simp_all

theorem mergeLoop_frame {k : Nat} {s t : State} (h : mergeLoop k s = .ok t) :
    t = { s with nodes := t.nodes, pq := t.pq } := by
  induction k generalizing s with
  | zero => cases h; rfl
  | succ k ih =>
    simp only [mergeLoop] at h
    split at h
    · cases h1 : mergeOnce s with
      | error f => simp [h1] at h
      | ok s1 =>
        simp only [h1] at h
        rw [ih h, mergeOnce_frame h1]
    · cases h; rfl

/-! ### The walk of `GENCODE` -/

/-- The walk writes only the code table. -/
theorem walk_frame {k : Nat} {n : NodeIdx} {path : List Bool} {s t : State}
    (h : walk k n path s = .ok t) : t = { s with code := t.code } := by
  induction k generalizing n path s t with
  | zero => simp [walk] at h
  | succ k ih =>
    simp only [walk] at h
    split at h
    · cases h; rfl
    · cases h1 : walk k (s.nodeAt n).left (path ++ [false]) s with
      | error f => simp [h1] at h
      | ok s1 =>
        simp only [h1] at h
        rw [ih h, ih h1]

theorem walk_leaf {k : Nat} {n : NodeIdx} (path : List Bool) {s : State} (h : s.isLeaf n = true) :
    walk (k + 1) n path s = .ok (s.visitLeaf n path) := by
  simp [walk, h]

theorem walk_internal {k : Nat} {n : NodeIdx} (path : List Bool) {s s1 : State}
    (h : s.isLeaf n = false) (h1 : walk k (s.nodeAt n).left (path ++ [false]) s = .ok s1) :
    walk (k + 1) n path s = walk k (s.nodeAt n).right (path ++ [true]) s1 := by
  have hn : s1.nodeAt n = s.nodeAt n := by rw [walk_frame h1]; rfl
  simp [walk, h, h1, hn]

end Sys2Proof.Machine
end

