-- ==== Sys2Proof/Laws/Step.lean ====
section
/-! SUPPORT. What the whole machine's step can do, once. -/

namespace Sys2Proof.Machine

variable (s : State)

/-- With no host action to come the core goes on by itself. -/
theorem step_nil {s : State} (h : s.script = []) : step s = tick s := by
  simp [step, hostStep, h]

/-- A command the host waits with is offered to a ready core; a busy core makes its own step. -/
theorem step_cmd {s : State} {w : Byte} {rest : List HostItem} (h : s.script = .cmd w :: rest) :
    step s = if s.busy then tick s else issueWord w { s with script := rest } := by
  simp [step, hostStep, h, hostAction]

/-- Every other action of the host is done at once. -/
theorem step_action {s : State} {a : HostItem} {rest : List HostItem} (h : s.script = a :: rest)
    (ha : ∀ w, a ≠ .cmd w) : step s = hostAction a { s with script := rest } := by
  cases a <;> simp_all [step, hostStep]

theorem ofExcept_not_refused (r : Except Fault State) (q : Refusal) : ofExcept r ≠ .refused q := by
  cases r <;> simp [ofExcept]

theorem runCommand_not_refused (i : Instr) (body : State → Result)
    (h : ∀ t q, body t ≠ .refused q) (q : Refusal) : runCommand i body s ≠ .refused q := by
  rcases runCommand_cases s i body with ⟨_, he⟩ | ⟨e, _, he⟩ | ⟨_, he⟩ <;> rw [he]
  · simp
  · simp
  · exact h _ q

/-- Every command's meaning is `runCommand` of a body that is never refused. -/
theorem exec_eq_runCommand (i : Instr) :
    ∃ body : State → Result, (∀ t q, body t ≠ .refused q) ∧ ∀ s, exec i s = runCommand i body s := by
  cases i with
  | clear => exact ⟨fun t => .next t.clearCore, fun _ _ => nofun, fun _ => rfl⟩
  | analyze => exact ⟨fun t => .next (analyzeBody t), fun _ _ => nofun, fun _ => rfl⟩
  | build => exact ⟨fun t => ofExcept (buildBody t), fun _ => ofExcept_not_refused _, fun _ => rfl⟩
  | gencode => exact ⟨fun t => ofExcept (gencodeBody t), fun _ => ofExcept_not_refused _, fun _ => rfl⟩
  | wrhdr => exact ⟨fun t => .next (wrhdrBody t), fun _ _ => nofun, fun _ => rfl⟩
  | encode => exact ⟨fun t => .next (encodeBody t), fun _ _ => nofun, fun _ => rfl⟩
  | rdhdr => exact ⟨fun t => .next (rdhdrBody t), fun _ _ => nofun, fun _ => rfl⟩
  | decode => exact ⟨fun t => .next (decodeBody t), fun _ _ => nofun, fun _ => rfl⟩

/-- No command is refused: each has its meaning. -/
theorem exec_not_refused (i : Instr) (q : Refusal) : exec i s ≠ .refused q := by
  obtain ⟨body, hb, he⟩ := exec_eq_runCommand i
  rw [he]
  exact runCommand_not_refused s i body hb q

/-- A command that is not accepted at line 7 of 46_control.md R283 changes at most `ERR` and `PHASE`. -/
theorem exec_not_running {i : Instr} (h : s.acceptance (some i) ≠ .runs i) :
    exec i s = .next s ∨ ∃ e, exec i s = .next (s.raise e) := by
  obtain ⟨body, -, he⟩ := exec_eq_runCommand i
  rw [he]
  rcases runCommand_cases s i body with ⟨_, he⟩ | ⟨e, _, he⟩ | ⟨hr, _⟩
  · exact .inl he
  · exact .inr ⟨e, he⟩
  · exact absurd hr h

end Sys2Proof.Machine
end

