-- ==== Sys2Proof/Tests/Slice0.lean ====
section
/-! SUPPORT. The model's own tests. Expected values come from the vectors and programs of
spec/95_test_vectors.md (V<n>, P<n>) and the worked examples the comments name. The second half holds
one witness for each statement of Certificates/Slice0/Obligations.lean that has hypotheses. -/

namespace Sys2Proof.Tests

set_option Elab.async false

open Sys2Proof.Machine Sys2Proof.Safety

/-! ### Small states -/

/-- The outcome is a next state with the given property. -/
def nextHas (r : Result) (p : State → Bool) : Bool :=
  match r with
  | .next t => p t
  | .fault _ => false
  | .refused _ => false

/-- The reset state with both streams attached and empty. -/
def attached : State :=
  { State.reset with srcOk := true, dstOk := true }

/-- A table of counts. -/
def counts (l : List (Byte × Count)) : ByteTable Count :=
  l.foldl (fun f p => f.putByte p.1 p.2) (Table.const 0 8)

/-- A table of codes, each given by its bits. -/
def codes (l : List (Byte × List Bool)) : ByteTable CodeRec :=
  l.foldl (fun c p => c.putByte p.1 (codeOfPath p.2)) (Table.const CodeRec.none 8)

/-- `L(s, w)` of 95_test_vectors.md B3. -/
def leafNode (s : Byte) (w : Weight) : Node :=
  { kind := .leaf, sym := s, w := w, left := 0, right := 0 }

/-- `I(w, l, r)` of 95_test_vectors.md B3. -/
def internalNode (w : Weight) (l r : NodeIdx) : Node :=
  { kind := .internal, sym := 0, w := w, left := l, right := r }

/-- The counts of vector V1, A:2 B:3 C:4. -/
def countsABC : ByteTable Count := counts [(0x41, 2), (0x42, 3), (0x43, 4)]

/-- The nodes of vector V10. -/
def nodesABC : List Node :=
  [leafNode 0x41 2, leafNode 0x42 3, leafNode 0x43 4, internalNode 5 0 1, internalNode 9 2 3]

/-- Both streams attached, with the counts of V1. -/
def withCounts : State := { attached with freq := countsABC }

/-- The same after `BUILD`: the tree of V10. -/
def withTree : State := { withCounts with nodes := nodesABC, root := 4, tv := true, phase := .done }

/-- The same after `GENCODE`: the codes of V20. -/
def withCode : State :=
  { withTree with
    cv := true
    code := codes [(0x43, [false]), (0x41, [true, false]), (0x42, [true, true])] }

/-- "AABBBCCCC" (00_scope.md R10). -/
def textAABBBCCCC : List Byte := [0x41, 0x41, 0x42, 0x42, 0x42, 0x43, 0x43, 0x43, 0x43]

/-- One symbol, A:4, and its Leaf root (vector V15). -/
def withLeafRoot : State :=
  { attached with freq := counts [(0x41, 4)], nodes := [leafNode 0x41 4], tv := true, phase := .done }

/-! ### Well-formedness (30_encoding.md R103) -/

theorem test_legalWord_refuses_00 : legalWord 0x00 = false := by decide
theorem test_legalWord_refuses_09 : legalWord 0x09 = false := by decide
theorem test_legalWord_refuses_ff : legalWord 0xFF = false := by decide
theorem test_legalWord_takes_01_and_08 : legalWord 0x01 = true ∧ legalWord 0x08 = true := by decide

/-- No command has an operand, so no command is ill-formed (30_encoding.md R102). -/
theorem test_every_command_wellFormed (i : Instr) : i.wellFormed = true := by
  cases i <;> rfl

/-! ### Decoding, from the words of spec/opcode_table.json -/

theorem test_decode_clear : decodeTableWord 8 0b00000001 = some .clear := by decide
theorem test_decode_analyze : decodeTableWord 8 0b00000010 = some .analyze := by decide
theorem test_decode_build : decodeTableWord 8 0b00000011 = some .build := by decide
theorem test_decode_gencode : decodeTableWord 8 0b00000100 = some .gencode := by decide
theorem test_decode_wrhdr : decodeTableWord 8 0b00000101 = some .wrhdr := by decide
theorem test_decode_encode : decodeTableWord 8 0b00000110 = some .encode := by decide
theorem test_decode_rdhdr : decodeTableWord 8 0b00000111 = some .rdhdr := by decide
theorem test_decode_decode : decodeTableWord 8 0b00001000 = some .decode := by decide
theorem test_decode_rejects_illegal :
    decode [0x00, 0x01] = .error (.illegalWord 0x00) ∧ decode [0x09] = .error (.illegalWord 0x09) := by
  decide
theorem test_decode_rejects_nothing : decode [] = .error .noWord := by decide

/-! ### `CLEAR` -/

/-- V54: from `PHASE = 4`, `ERR = 3`, any other state. -/
theorem test_clear_from_error :
    nextHas (exec .clear { withCode with phase := .error, err := .emptyOrUnreadableInput })
      (fun t => t.phase == .idle && t.err == .none && t.freqAt 0x41 == 0 && !t.tv && !t.cv &&
        t.nnodes == 0) = true := by
  decide +kernel

/-- V55: the host's side is not changed. -/
theorem test_clear_keeps_streams :
    nextHas (exec .clear { withCode with istr := [1, 2], ostr := [3] })
      (fun t => t.istr == [1, 2] && t.ostr == [3] && t.srcOk && t.dstOk) = true := by
  decide +kernel

/-! ### `ANALYZE` -/

/-- V1. -/
theorem test_analyze_counts :
    nextHas (exec .analyze { attached with istr := textAABBBCCCC })
      (fun t => t.freq == countsABC && t.istr == [] && t.phase == .done && t.err == .none) = true := by
  decide +kernel

/-- V4b: `CB = 1`, 256 bytes `0x41`, and one byte more that must stay unread. -/
theorem test_analyze_overflow :
    nextHas (exec .analyze { attached with cb := 0, istr := List.replicate 257 0x41 })
      (fun t => t.err == .countOverflow && t.phase == .error && t.freqAt 0x41 == 255 &&
        t.istr == [0x41]) = true := by
  decide +kernel

/-! ### `BUILD` and the priority order -/

/-- V10, 42_tree_builder.md R190. -/
theorem test_build_abc :
    nextHas (exec .build withCounts)
      (fun t => t.nodes == nodesABC && t.root == 4 && t.pq == [] && t.tv && !t.cv &&
        t.phase == .done) = true := by
  decide +kernel

/-- V14: ties among Leaves and Internal nodes. -/
theorem test_build_ties :
    nextHas (exec .build
        { attached with freq := counts [(0x41, 5), (0x42, 2), (0x43, 1), (0x44, 1), (0x52, 2)] })
      (fun t => t.nodes == [leafNode 0x41 5, leafNode 0x42 2, leafNode 0x43 1, leafNode 0x44 1,
        leafNode 0x52 2, internalNode 2 2 3, internalNode 4 1 4, internalNode 6 5 6,
        internalNode 11 0 7] && t.root == 8) = true := by
  decide +kernel

/-- Leaves of weights 2, 5, 5, 5 (V6, V7): an order `[a, b, c]` and a node `d` of weight 5. -/
def orderBCD : State :=
  { attached with
    nodes := [leafNode 0 2, leafNode 1 5, leafNode 2 5, leafNode 3 5], pq := [0, 1, 2] }

/-- V6: after all equal weights. -/
theorem test_insert_after_equals :
    (match orderBCD.insert 3 with | .ok t => t.pq | .error _ => []) = [0, 1, 2, 3] := by
  decide +kernel

/-- V9a, V9b, V9c. -/
theorem test_take_and_peek :
    orderBCD.takeMinimum.1 = some 0 ∧ orderBCD.takeMinimum.2.pq = [1, 2] ∧
      attached.takeMinimum.1 = none ∧ orderBCD.peekMinimum = some 0 ∧ attached.peekMinimum = none := by
  decide +kernel

/-! ### `GENCODE` -/

/-- V20. -/
theorem test_gencode_abc :
    nextHas (exec .gencode withTree)
      (fun t => t.codeAt 0x43 == ⟨true, 1, 0⟩ && t.codeAt 0x41 == ⟨true, 2, 2⟩ &&
        t.codeAt 0x42 == ⟨true, 2, 3⟩ && t.codeAt 0x44 == CodeRec.none && t.cv) = true := by
  decide +kernel

/-- V25: the empty code of a Leaf root is a valid record. -/
theorem test_gencode_leaf_root :
    nextHas (exec .gencode withLeafRoot)
      (fun t => t.codeAt 0x41 == ⟨true, 0, 0⟩ && t.register 0xA08 == 0x100#64) = true := by
  decide +kernel

/-! ### `WRHDR` -/

/-- V30a at `CB = 2`: the count 0x0201 of symbol 0x10 at offsets 0x20, 0x21, least significant first. -/
theorem test_wrhdr_little_endian :
    nextHas (exec .wrhdr { attached with cb := 1, freq := counts [(0x10, 0x0201)] })
      (fun t => t.ostr.length == 512 && t.ostr[0x20]? == some 0x01 && t.ostr[0x21]? == some 0x02 &&
        t.ostr[0x22]? == some 0x00 && t.phase == .done) = true := by
  decide +kernel

/-- V30b. -/
theorem test_wrhdr_needs_destination :
    nextHas (exec .wrhdr { withCode with dstOk := false })
      (fun t => t.err == .destinationOpenFailure && t.phase == .error && t.ostr == []) = true := by
  decide +kernel

/-! ### `ENCODE` -/

/-- V31, 44_encoder.md R234. -/
theorem test_encode_abc :
    nextHas (exec .encode { withCode with istr := textAABBBCCCC })
      (fun t => t.ostr == [0xAF, 0xC0] && t.acc == 0 && t.accn == 0 && t.istr == [] &&
        t.phase == .done) = true := by
  decide +kernel

/-- V38: codes B = 0, A = 1; C has no code; `RD(0x004) = 0x280`. -/
theorem test_encode_no_code :
    nextHas (exec .encode
        { withTree with
          cv := true
          code := codes [(0x42, [false]), (0x41, [true])]
          istr := [0x41, 0x42, 0x43] })
      (fun t => t.err == .noCodeForSymbol && t.phase == .error && t.register 0x004 == 0x280#64 &&
        t.istr == [] && t.ostr == []) = true := by
  decide +kernel

/-! ### `RDHDR` -/

/-- V40b: a header cut short after two counts and three bytes. -/
theorem test_rdhdr_short :
    nextHas (exec .rdhdr { attached with
        istr := [5, 0, 0, 0, 0, 0, 0, 0, 7, 0, 0, 0, 0, 0, 0, 0, 9, 0, 0, 0] })
      (fun t => t.err == .malformedStream && t.phase == .error && t.freqAt 0 == 5 &&
        t.freqAt 1 == 7 && t.freqAt 2 == 0 && t.istr == []) = true := by
  decide +kernel

/-- V40a at `CB = 2`: bytes 01 02 at the field of symbol 0x10, and a body byte that stays. -/
theorem test_rdhdr_counts :
    nextHas (exec .rdhdr { attached with
        cb := 1
        istr := (List.replicate 32 0 ++ [0x01, 0x02] ++ List.replicate 478 0 ++ [0xAF]) })
      (fun t => t.freqAt 0x10 == 513 && t.istr == [0xAF] && t.phase == .done && !t.tv) = true := by
  decide +kernel

/-! ### `DECODE` -/

/-- V48: the body ends inside a code; `CUR = 3`. -/
theorem test_decode_ends_inside_code :
    nextHas (exec .decode { withTree with istr := [0xAF, 0xC1] })
      (fun t => t.ostr == textAABBBCCCC ++ [0x43] && t.cur == 3 && t.err == .none &&
        t.phase == .done) = true := by
  decide +kernel

/-- V46: a Leaf root and a body that is not empty. -/
theorem test_decode_leaf_root :
    nextHas (exec .decode { withLeafRoot with istr := [0x00] })
      (fun t => t.err == .malformedStream && t.phase == .error && t.istr == [0x00] &&
        t.ostr == []) = true := by
  decide +kernel

/-! ### Acceptance and the register map -/

/-- V39: `SequenceError` is reported even if both streams are detached. -/
theorem test_encode_flag_before_streams :
    nextHas (exec .encode { withTree with srcOk := false, dstOk := false })
      (fun t => t.err == .sequenceError) = true := by
  decide +kernel

/-- V39a: the source is checked before the destination. -/
theorem test_encode_source_before_dest :
    nextHas (exec .encode { withCode with srcOk := false, dstOk := false })
      (fun t => t.err == .sourceOpenFailure) = true := by
  decide +kernel

/-- V50: `STATUS = 0x504` after an illegal word at reset. -/
theorem test_illegal_word_status :
    nextHas (issueWord 0x00 State.reset) (fun t => t.statusWord == 0x504#64) = true := by
  decide +kernel

/-- V53: no `IllegalCommand` while in `Error`. -/
theorem test_error_phase_ignores_illegal :
    nextHas (issueWord 0xFF { attached with phase := .error, err := .emptyOrUnreadableInput })
      (fun t => t.err == .emptyOrUnreadableInput) = true := by
  decide +kernel

/-- V57, V58. -/
theorem test_registers_at_reset :
    State.reset.register 0x006 = 0x4818#64 ∧ State.reset.register 0x000 = 0#64 ∧
      State.reset.register 0x200 = 0x1FF#64 ∧ State.reset.register 0x0FF = 0#64 := by
  decide +kernel

/-- The register view of V10. -/
theorem test_registers_of_tree :
    withTree.register 0x401 = 0x4100#64 ∧ withTree.register 0x407 = 0x402000000#64 ∧
      withTree.register 0x408 = 9#64 ∧ withTree.register 0x409 = 0x406020000#64 := by
  decide +kernel

/-- The register view of V20. -/
theorem test_registers_of_codes :
    withCode.register 0xA18 = 0x101#64 ∧ withCode.register 0xA19 = 0#64 ∧
      withCode.register 0xA10 = 0x102#64 ∧ withCode.register 0xA11 = 3#64 := by
  decide +kernel

/-! ### The host's actions and the step -/

/-- P1's encoding: `01 02 03 04 05 06`. -/
theorem test_compress_words : scriptWords (compressScript []) = [1, 2, 3, 4, 5, 6] := by
  decide

/-- P2's encoding: `01 07 03 08`. -/
theorem test_decompress_words : scriptWords (decompressScript []) = [1, 7, 3, 8] := by
  decide

/-- V56, by the step itself: `BUILD` as the first command after reset. -/
theorem test_step_build_after_reset :
    nextHas (step (State.reset.withFetchWord 8 0x03))
      (fun t => t.err == .emptyOrUnreadableInput && t.phase == .error && t.script == []) = true := by
  decide +kernel

/-- A word offered without waiting leaves the core in `PHASE = 1` (46_control.md R283 line 7), and
`STATUS` shows it (20_memory.md R82). -/
theorem test_offer_makes_busy :
    nextHas (step { attached with script := [.offer 0x02] })
      (fun t => t.busy && t.statusWord == 0x61#64) = true := by
  decide +kernel

/-- `CLEAR` offered in `PHASE = 4`: while it runs `ERR` is 0 (10_state.md R33, 46_control.md R285). -/
theorem test_offer_clear_in_error :
    nextHas (step { attached with
        phase := .error, err := .emptyOrUnreadableInput, script := [.offer 0x01] })
      (fun t => t.busy && t.err == .none && t.statusWord == 0x61#64) = true := by
  decide +kernel

/-- A core in the byte loop of `ANALYZE`. -/
def running : State :=
  { attached with phase := .streaming .analyze, istr := [0x41, 0x42] }

/-- 70_reset_and_hazards.md R344: a stream action while busy is refused. -/
theorem test_attach_while_busy :
    (match step { running with script := [.dst] } with
      | .refused r => r == .streamChangeWhileBusy
      | .next _ => false
      | .fault _ => false) = true := by
  decide +kernel

/-- 70_reset_and_hazards.md R340: reset abandons the command; the byte it consumed stays consumed. -/
theorem test_reset_while_busy :
    nextHas (tick running) (fun u => u.freqAt 0x41 == 1 &&
      nextHas (step { u with script := [.reset] })
        (fun t => t.phase == .idle && t.freqAt 0x41 == 0 && t.istr == [0x42])) = true := by
  decide +kernel

/-- 42_tree_builder.md R181, V10: the step-by-step run of `BUILD` reaches its meaning after the start,
256 symbols, the end of the load loop, two merges and the last lines. -/
theorem test_ticks_build :
    nextHas (ticks 261 (withCounts.begin .build))
      (fun t => t.nodes == nodesABC && t.root == 4 && t.tv && t.phase == .done) = true := by
  decide +kernel

/-! ### Witnesses: concrete states and operands that meet a statement's hypotheses together -/

theorem exists_next {r : Result} {p : State → Bool} (h : nextHas r p = true) :
    ∃ t, r = .next t ∧ p t = true := by
  cases r with
  | next t => exact ⟨t, rfl, h⟩
  | fault f => cases h
  | refused q => cases h

theorem treeMatches_of {s : State}
    (h : (match buildBody s with
      | .ok t => t.tv && s.nodes == t.nodes && s.root == t.root
      | .error _ => false) = true) : TreeMatches s := by
  unfold TreeMatches
  cases hb : buildBody s with
  | error f => simp [hb] at h
  | ok t => exact ⟨t, rfl, by simp_all⟩

theorem codeMatches_of {s : State}
    (h : (match gencodeBody s with
      | .ok t => s.code == t.code
      | .error _ => false) = true) : CodeMatches s := by
  unfold CodeMatches
  cases hb : gencodeBody s with
  | error f => simp [hb] at h
  | ok t => exact ⟨t, rfl, by simp_all⟩

/-- The tree of V10 has the shape of 10_state.md R39. -/
theorem shape_withTree : TreeShape withTree where
  some_symbol := by decide +kernel
  size := by decide +kernel
  root_last := by decide +kernel
  leaves := by decide +kernel
  internal := by decide +kernel
  children := by decide +kernel
  weights := by decide +kernel
  one_parent := by decide +kernel
  total := by decide +kernel

/-- The same tree beside its codes, with a source of coded symbols. -/
def encodable : State := { withCode with istr := textAABBBCCCC }

theorem shape_encodable : TreeShape encodable where
  some_symbol := by decide +kernel
  size := by decide +kernel
  root_last := by decide +kernel
  leaves := by decide +kernel
  internal := by decide +kernel
  children := by decide +kernel
  weights := by decide +kernel
  one_parent := by decide +kernel
  total := by decide +kernel

/-- The tree of one symbol (V15). -/
theorem shape_withLeafRoot : TreeShape withLeafRoot where
  some_symbol := by decide +kernel
  size := by decide +kernel
  root_last := by decide +kernel
  leaves := by decide +kernel
  internal := by decide +kernel
  children := by decide +kernel
  weights := by decide +kernel
  one_parent := by decide +kernel
  total := by decide +kernel

theorem inv_encodable : Inv encodable where
  err := by simp [ErrMatches, encodable, withCode, withTree, withCounts, attached, State.reset]
  counts := by unfold CountsFit; decide +kernel
  part := trivial
  arena := by decide +kernel
  order := by decide +kernel
  acc := by unfold AccClean; decide +kernel
  code := by unfold CodeRecOk; decide +kernel
  source := by decide +kernel
  flags := by decide +kernel
  task := trivial

theorem flagsMean_encodable : FlagsMean encodable :=
  ⟨fun _ => treeMatches_of (by decide +kernel),
    fun _ => ⟨rfl, codeMatches_of (by decide +kernel)⟩, trivial⟩

theorem accepting_attached : Accepting attached := .inl rfl
theorem accepting_withTree : Accepting withTree := .inr rfl
theorem accepting_encodable : Accepting encodable := .inr rfl

theorem witness_DecodeAndEncodeAgree :
    Instr.wellFormed .encode = true ∧ decode [0x06, 0x08] = .ok (.encode, [0x08]) := by
  decide

theorem witness_IllegalWordsRejected :
    ((0x00 : Byte).toNat = 0 ∨ 9 ≤ (0x00 : Byte).toNat) ∧
      ((0x09 : Byte).toNat = 0 ∨ 9 ≤ (0x09 : Byte).toNat) := by
  decide

theorem witness_ResetAndClearLeaveCoreAtReset :
    ({ running with script := [.reset, .wait] } : State).script = .reset :: [.wait] ∧
      ({ attached with phase := .error, err := .sequenceError } : State).busy = false := by
  decide

theorem witness_ClearGivesResetCore : encodable.busy = false ∧
    ({ attached with phase := .error, err := .sequenceError } : State).busy = false := by
  decide

theorem witness_ResetAbandonsRunningCommand :
    running.busy = true ∧ ∃ u, ticks 1 running = .next u :=
  ⟨rfl, (exists_next (p := fun u => u.busy) (by decide +kernel)).imp fun _ h => h.1⟩

theorem witness_BusyCoreTakesNoWord : running.busy = true ∧
    ({ attached with phase := .flushing .encode, script := [.cmd 1] } : State).busy = true ∧
    ({ attached with phase := .flushing .encode, script := [.cmd 1] } : State).script =
      .cmd 1 :: [] := by
  decide

theorem witness_ErrorPhaseIgnoresAllButClear :
    ({ attached with phase := .error, err := .sequenceError } : State).phase = .error ∧
      Instr.build ≠ .clear ∧ (0xFF : Byte) ≠ 0x01 := by
  decide

theorem witness_IllegalWordRaisesIllegalCommand : Accepting attached ∧ Accepting withTree ∧
    ((0x00 : Byte).toNat = 0 ∨ 9 ≤ (0x00 : Byte).toNat) ∧
    ((0x09 : Byte).toNat = 0 ∨ 9 ≤ (0x09 : Byte).toNat) ∧
    ((0xFF : Byte).toNat = 0 ∨ 9 ≤ (0xFF : Byte).toNat) :=
  ⟨accepting_attached, accepting_withTree, by decide⟩

theorem witness_MissingFlagRaisesSequenceError : Accepting attached ∧ attached.tv = false ∧
    Accepting withTree ∧ withTree.cv = false ∧
    withTree.acceptance (some .encode) = .raised .sequenceError :=
  ⟨accepting_attached, rfl, accepting_withTree, rfl, by decide⟩

theorem witness_DetachedSourceRaisesSourceOpenFailure :
    Accepting { encodable with srcOk := false } ∧
    ({ encodable with srcOk := false } : State).flagHolds (needs .encode).flag = true ∧
    ({ encodable with srcOk := false } : State).acceptance (some .encode) =
      .raised .sourceOpenFailure :=
  ⟨.inr rfl, by decide, by decide⟩

theorem witness_DetachedDestRaisesDestinationOpenFailure :
    Accepting { encodable with dstOk := false } ∧
    ({ encodable with dstOk := false } : State).flagHolds (needs .decode).flag = true ∧
    ((needs .decode).source = true → ({ encodable with dstOk := false } : State).srcOk = true) ∧
    ({ encodable with dstOk := false } : State).acceptance (some .decode) =
      .raised .destinationOpenFailure :=
  ⟨.inr rfl, by decide, by decide, by decide⟩

/-- `CLEAR` ends in `PHASE = 0`, `ENCODE` in 3, and `ENCODE` of a byte without a code in 4. -/
theorem witness_AcceptedCommandsEndReady :
    (encodable.acceptance (some .clear) = .runs .clear ∧
      ∃ t, exec .clear encodable = .next t ∧ (t.phase == .idle) = true) ∧
    (encodable.acceptance (some .encode) = .runs .encode ∧
      ∃ t, exec .encode encodable = .next t ∧ (t.phase == .done) = true) ∧
    (({ encodable with istr := [0x44] } : State).acceptance (some .encode) = .runs .encode ∧
      ∃ t, exec .encode { encodable with istr := [0x44] } = .next t ∧ (t.phase == .error) = true) :=
  ⟨⟨by decide, exists_next (by decide +kernel)⟩, ⟨by decide, exists_next (by decide +kernel)⟩,
    ⟨by decide, exists_next (by decide +kernel)⟩⟩

theorem witness_EveryCommandTerminates :
    (Instr.gencode = .gencode → withTree.tv = true → TreeShape withTree) ∧
      (Instr.decode = .gencode → attached.tv = true → TreeShape attached) :=
  ⟨fun _ _ => shape_withTree, nofun⟩

theorem witness_AnalyzeCountsEveryByte :
    (attached.freqAt 0x41).toNat < countMax attached.cb ∧
    Accepting { attached with istr := textAABBBCCCC } ∧
    (∀ b, textAABBBCCCC.count b ≤ countMax attached.cb) :=
  ⟨by decide +kernel, .inl rfl, by decide +kernel⟩

/-- `CMAX = 255` at `CB = 1`; the byte at the boundary is the 256th. -/
theorem witness_AnalyzeOverflowStops :
    List.replicate 257 (0x41 : Byte) = List.replicate 255 0x41 ++ 0x41 :: [0x41] ∧
    (∀ c : Byte, (List.replicate 255 (0x41 : Byte)).count c ≤ countMax 0) ∧
    (List.replicate 255 (0x41 : Byte)).count 0x41 = countMax 0 ∧
    Accepting { attached with cb := 0, istr := List.replicate 257 0x41 } :=
  ⟨by decide +kernel, by decide +kernel, by decide +kernel, .inl rfl⟩

theorem witness_AnalyzeConservesLength :
    ∃ t, exec .analyze { attached with istr := textAABBBCCCC } = .next t ∧
      (t.phase == .done) = true :=
  exists_next (by decide +kernel)

theorem witness_WeightSumFits : CountsFit withCounts := by
  unfold CountsFit; decide +kernel

theorem witness_AllocationAppendsOneRecord : attached.nnodes < 511 ∧
    ({ attached with nodes := List.replicate 510 Node.zero } : State).nnodes < 511 := by
  decide +kernel

theorem ordered_orderBCD : Ordered orderBCD := by
  unfold Ordered; decide +kernel

theorem witness_InsertPlacesByWeight : orderBCD.pqlen < 256 ∧ Ordered orderBCD ∧ 3 ∉ orderBCD.pq :=
  ⟨by decide, ordered_orderBCD, by decide⟩

theorem witness_PriorityOrderKept :
    Ordered orderBCD ∧ 3 ∉ orderBCD.pq ∧ ∃ t, orderBCD.insert 3 = .ok t := by
  refine ⟨ordered_orderBCD, by decide, ?_⟩
  rcases orderBCD.insert_cases 3 with ⟨_, h⟩ | ⟨h, _⟩
  · exact ⟨_, h⟩
  · exact absurd h (by decide)

theorem witness_MinimumIsTheHead :
    attached.pq = [] ∧ orderBCD.pq = 0 :: [1, 2] ∧ Ordered orderBCD :=
  ⟨rfl, rfl, ordered_orderBCD⟩

theorem witness_MinimumIsTheHead_peek : attached.pqlen = 0 ∧ 0 < orderBCD.pq.length := by
  decide

theorem witness_BuildOnEmptyTableRaises : Accepting attached ∧ ∀ b, attached.freqAt b = 0 :=
  ⟨.inl rfl, by decide +kernel⟩

theorem witness_BuildOneSymbolGivesLeafRoot : Accepting withLeafRoot ∧
    withLeafRoot.freqAt 0x41 ≠ 0 ∧ ∀ c, c ≠ 0x41 → withLeafRoot.freqAt c = 0 :=
  ⟨.inr rfl, by decide +kernel, by decide +kernel⟩

theorem witness_MergeJoinsTwoLeast :
    orderBCD.pq = 0 :: 1 :: [2] ∧ Ordered orderBCD ∧ (∀ m ∈ orderBCD.pq, m.val < orderBCD.nnodes) ∧
      orderBCD.nnodes < 511 ∧ orderBCD.pqlen ≤ 256 ∧
      (orderBCD.weight 0).toNat + (orderBCD.weight 1).toNat < 2 ^ 72 :=
  ⟨rfl, ordered_orderBCD, by decide +kernel, by decide, by decide, by decide +kernel⟩

theorem witness_BuildCompletesWithTree : Accepting withCounts ∧ 1 ≤ distinct withCounts ∧
    Accepting withLeafRoot ∧ distinct withLeafRoot = 1 :=
  ⟨.inl rfl, by decide +kernel, .inr rfl, by decide +kernel⟩

theorem witness_DerivedStructuresAreFunctions_build : Accepting withCounts ∧ Accepting encodable ∧
    withCounts.freq = encodable.freq ∧
    ∃ t, exec .build withCounts = .next t ∧ (t.phase == .done) = true :=
  ⟨.inl rfl, .inr rfl, rfl, exists_next (by decide +kernel)⟩

theorem witness_GencodeAssignsPaths : Accepting withTree ∧ withTree.tv = true ∧ TreeShape withTree ∧
    LeafPath withTree [true, false] 0x41 :=
  ⟨accepting_withTree, rfl, shape_withTree, 0,
    (PathTo.edge (s := withTree) (n := 3) false (PathTo.edge (s := withTree) (n := 4) true .root (by decide +kernel))
      (by decide +kernel)),
    by decide +kernel, by decide +kernel⟩

theorem witness_GencodeOnLeafRootGivesEmptyCode : Accepting withLeafRoot ∧
    withLeafRoot.tv = true ∧ withLeafRoot.isLeaf withLeafRoot.root = true :=
  ⟨.inr rfl, rfl, by decide +kernel⟩

theorem witness_CodesArePrefixFree : Accepting withTree ∧ withTree.tv = true ∧
    TreeShape withTree ∧ 2 ≤ distinct withTree ∧
    (∃ t, exec .gencode withTree = .next t ∧
      ((t.codeAt 0x41).valid && (t.codeAt 0x42).valid) = true) ∧
    TreeShape withLeafRoot ∧ distinct withLeafRoot = 1 :=
  ⟨accepting_withTree, rfl, shape_withTree, by decide +kernel, exists_next (by decide +kernel),
    shape_withLeafRoot, by decide +kernel⟩

theorem witness_CodeLengthsMeetKraft : Accepting withLeafRoot ∧ withLeafRoot.tv = true ∧
    TreeShape withLeafRoot ∧ (∃ t, exec .gencode withLeafRoot = .next t ∧
      (t.codeAt 0x41).valid = true) ∧ 2 ≤ distinct withTree :=
  ⟨.inr rfl, rfl, shape_withLeafRoot, exists_next (by decide +kernel), by decide +kernel⟩

theorem witness_DerivedStructuresAreFunctions_gencode : Accepting withTree ∧ Accepting encodable ∧
    withTree.tv = true ∧ encodable.tv = true ∧ withTree.nodes = encodable.nodes ∧
    withTree.root = encodable.root ∧
    ∃ t, exec .gencode withTree = .next t ∧ t.cv = true :=
  ⟨accepting_withTree, accepting_encodable, rfl, rfl, rfl, rfl, exists_next (by decide +kernel)⟩

theorem witness_WrhdrAppendsHeader : Accepting withCounts ∧ withCounts.dstOk = true :=
  ⟨.inl rfl, rfl⟩

theorem witness_HeaderRoundTrip : Accepting withCounts ∧ withCounts.dstOk = true ∧
    CountsFit withCounts ∧ Accepting attached ∧ attached.cb = withCounts.cb ∧
    attached.srcOk = true :=
  ⟨.inl rfl, rfl, witness_WeightSumFits, .inl rfl, rfl, rfl⟩

/-- At `CB = 1`: the header `WRHDR` appends, and a core whose source is that header and a body. -/
theorem witness_HeaderRoundTrip_source :
    (∃ t, exec .wrhdr { withCounts with cb := 0 } = .next t ∧
      (t.ostr == ({ withCounts with cb := 0 } : State).headerBytes) = true) ∧
    (({ withCounts with cb := 0 } : State).headerBytes).length = headerLen 0 ∧
    Accepting { attached with cb := 0, istr := ({ withCounts with cb := 0 } : State).headerBytes ++ [0xAF] } ∧
    (∃ t, exec .rdhdr { attached with
        cb := 0, istr := ({ withCounts with cb := 0 } : State).headerBytes ++ [0xAF] } = .next t ∧
      (t.freq == countsABC && t.istr == [0xAF]) = true) :=
  ⟨exists_next (by decide +kernel), by decide +kernel, .inl rfl, exists_next (by decide +kernel)⟩

/-- An empty accumulator, and one with seven bits. -/
theorem witness_PutbitFillsFromTheTop :
    AccClean attached ∧ attached.accn.val < 7 ∧
      AccClean { attached with acc := 0b10100110, accn := 7 } ∧
      ({ attached with acc := 0b10100110, accn := 7 } : State).accn.val = 7 := by
  unfold AccClean; decide +kernel

theorem witness_EncodeByteAdvancesByLength : (withCode.codeAt 0x41).valid = true ∧
    ((codeOfPath (List.replicate 255 true)).len).toNat = 255 := by
  decide +kernel

theorem witness_EncodeAppendsBody : Accepting encodable ∧ encodable.cv = true ∧
    encodable.srcOk = true ∧ encodable.dstOk = true ∧
    ∀ b ∈ encodable.istr, (encodable.codeAt b).valid = true :=
  ⟨accepting_encodable, rfl, rfl, rfl, by decide +kernel⟩

/-- The codes of V25, one symbol with the empty code, and the source "AAAA" of V34. -/
def emptyCode : State :=
  { withLeafRoot with cv := true, code := codes [(0x41, [])], istr := [0x41, 0x41, 0x41, 0x41] }

theorem witness_EncodeEmptyCodesWritesNothing : Accepting emptyCode ∧ emptyCode.cv = true ∧
    emptyCode.srcOk = true ∧ emptyCode.dstOk = true ∧
    ∀ b ∈ emptyCode.istr, (emptyCode.codeAt b).valid = true ∧ (emptyCode.codeAt b).len = 0 :=
  ⟨.inr rfl, rfl, rfl, rfl, by decide +kernel⟩

theorem witness_EncodeStopsAtByteWithoutCode :
    Accepting { encodable with istr := [0x41, 0x44, 0x42] } ∧
    ({ encodable with istr := [0x41, 0x44, 0x42] } : State).istr = [0x41] ++ 0x44 :: [0x42] ∧
    (∀ c ∈ [(0x41 : Byte)], (encodable.codeAt c).valid = true) ∧
    (encodable.codeAt 0x44).valid = false :=
  ⟨.inr rfl, rfl, by decide +kernel, by decide +kernel⟩

/-- The boundary between a whole header and a short one, at `CB = 1`: 256 and 255 bytes. -/
theorem witness_RdhdrReadsCounts :
    Accepting { attached with cb := 0, istr := List.replicate 256 1 } ∧
    headerLen 0 ≤ (List.replicate 256 (1 : Byte)).length :=
  ⟨.inl rfl, by decide +kernel⟩

theorem witness_RdhdrShortHeaderRaises :
    Accepting { attached with cb := 0, istr := List.replicate 255 1 } ∧
    (List.replicate 255 (1 : Byte)).length < headerLen 0 ∧ ([] : List Byte).length < headerLen 7 :=
  ⟨.inl rfl, by decide +kernel, by decide +kernel⟩

theorem witness_DecodeWalksEveryBit : Accepting encodable ∧ encodable.tv = true ∧
    encodable.srcOk = true ∧ encodable.dstOk = true ∧ encodable.isLeaf encodable.root = false :=
  ⟨accepting_encodable, rfl, rfl, rfl, by decide +kernel⟩

theorem witness_DecodeOnLeafRoot : Accepting withLeafRoot ∧ withLeafRoot.tv = true ∧
    withLeafRoot.srcOk = true ∧ withLeafRoot.dstOk = true ∧
    withLeafRoot.isLeaf withLeafRoot.root = true ∧ withLeafRoot.istr = [] ∧
    ({ withLeafRoot with istr := [0] } : State).istr ≠ [] :=
  ⟨.inr rfl, rfl, rfl, rfl, by decide +kernel, rfl, by decide⟩

theorem witness_DecodeOfEncodedBody : Accepting encodable ∧ encodable.tv = true ∧
    encodable.cv = true ∧ encodable.srcOk = true ∧ encodable.dstOk = true ∧ TreeShape encodable ∧
    CodeMatches encodable ∧ 2 ≤ distinct encodable ∧ ∀ b ∈ encodable.istr, encodable.freqAt b ≠ 0 :=
  ⟨accepting_encodable, rfl, rfl, rfl, rfl, shape_encodable, codeMatches_of (by decide +kernel),
    by decide +kernel, by decide +kernel⟩

theorem witness_FrameOfCountingCommands :
    (∃ t, exec .analyze encodable = .next t ∧ (t.phase == .done) = true) ∧
      ∃ t, exec .rdhdr encodable = .next t ∧ (t.phase == .error) = true :=
  ⟨exists_next (by decide +kernel), exists_next (by decide +kernel)⟩

theorem witness_FrameOfTreeCommands :
    (∃ t, exec .build encodable = .next t ∧ (t.phase == .done) = true) ∧
      ∃ t, exec .gencode encodable = .next t ∧ (t.phase == .done) = true :=
  ⟨exists_next (by decide +kernel), exists_next (by decide +kernel)⟩

theorem witness_FrameOfStreamCommands :
    (∃ t, exec .wrhdr { encodable with cb := 0 } = .next t ∧ (t.phase == .done) = true) ∧
    (∃ t, exec .encode encodable = .next t ∧ (t.phase == .done) = true) ∧
      ∃ t, exec .decode encodable = .next t ∧ (t.phase == .done) = true :=
  ⟨exists_next (by decide +kernel), exists_next (by decide +kernel),
    exists_next (by decide +kernel)⟩

theorem witness_StreamsKeepOrder :
    (∃ t, exec .encode encodable = .next t ∧ (t.ostr == [0xAF, 0xC0]) = true) ∧
      ∃ t, tick running = .next t ∧ (t.istr == [0x42]) = true :=
  ⟨exists_next (by decide +kernel), exists_next (by decide +kernel)⟩

theorem witness_RegisterMapShowsState : CountsFit encodable ∧
    (∀ n, (encodable.weight n).toNat < 2 ^ weightBits encodable.cb) ∧ encodable.nnodes ≤ 511 ∧
    encodable.pqlen ≤ 256 :=
  ⟨inv_encodable.counts, by decide +kernel, by decide, by decide⟩

theorem witness_RegisterReadHasNoSideEffect :
    encodable.busy = false ∧ running.busy = true ∧ (0x101 : BitVec 12) ≠ 0x000 := by
  decide

theorem witness_StepRunsDecodedCommand :
    ({ encodable with script := [.cmd 0x06] } : State).busy = false ∧
    ({ encodable with script := [.cmd 0x06] } : State).script = .cmd 0x06 :: [] ∧
    decodeWord 0x06 = some .encode ∧ decodeTableWord 8 0x06 = some .encode ∧
    decodeWord 0x09 = none := by
  decide

theorem witness_StreamActionsOfTheHost : encodable.busy = false ∧ running.busy = true := by
  decide

theorem witness_StreamActionsOfTheHost_refused :
    step { running with script := [.src [1]] } = .refused .streamChangeWhileBusy := rfl

/-- Every transition of the core: it stays ready, goes on, flushes, completes, clears and raises; and
the completion of a flush. -/
theorem witness_PhaseTransitionsOfTheCore :
    (∃ t, tick attached = .next t ∧ (t.phase == .idle) = true) ∧ attached.busy = false ∧
    (∃ t, tick running = .next t ∧ (t.phase == .streaming .analyze) = true) ∧
    (∃ t, tick { encodable with phase := .streaming (.encode []), istr := [] } = .next t ∧
      (t.phase == .flushing .encode) = true) ∧
    (∃ t, tick { withLeafRoot with phase := .streaming (.start .decode) } = .next t ∧
      (t.phase == .flushing .decode) = true) ∧
    (∃ t, tick { running with istr := [] } = .next t ∧ (t.phase == .done) = true) ∧
    (∃ t, tick { encodable with phase := .streaming (.start .clear) } = .next t ∧
      (t.phase == .idle) = true) ∧
    (∃ t, tick { encodable with phase := .streaming (.encode []), istr := [0x44] } = .next t ∧
      (t.phase == .error) = true) ∧
    (∃ t, tick { encodable with phase := .flushing .encode } = .next t ∧
      (t.phase == .done) = true) :=
  ⟨exists_next (by decide +kernel), by decide, exists_next (by decide +kernel),
    exists_next (by decide +kernel), exists_next (by decide +kernel), exists_next (by decide +kernel),
    exists_next (by decide +kernel), exists_next (by decide +kernel), exists_next (by decide +kernel)⟩

theorem witness_RunningCommandReachesItsMeaning : decodeWord 0x08 = some .decode ∧
    encodable.acceptance (some .decode) = .runs .decode ∧
      ∃ t, exec .decode encodable = .next t ∧ (t.phase == .done) = true :=
  ⟨by decide, by decide, exists_next (by decide +kernel)⟩

/-- `ENCODE` in `PHASE = 3`, and `CLEAR` in `PHASE = 4`. -/
theorem witness_OfferedCommandStarts :
    decodeWord 0x06 = some .encode ∧ Accepting encodable ∧
    encodable.flagHolds (needs .encode).flag = true ∧ encodable.srcOk = true ∧
    encodable.dstOk = true ∧ decodeWord 0x01 = some .clear ∧
    ({ attached with phase := .error, err := .sequenceError } : State).phase = .error ∧
    ErrMatches { attached with phase := .error, err := .sequenceError } :=
  ⟨by decide, accepting_encodable, by decide, rfl, rfl, by decide, rfl, by simp [ErrMatches]⟩

theorem witness_StepKeepsInvariant : Inv encodable ∧ ∃ t, step encodable = .next t :=
  ⟨inv_encodable, encodable, rfl⟩

theorem witness_StepKeepsMeaningOfFlags : FlagsMean encodable ∧ encodable.tv = true ∧
    encodable.cv = true ∧ ∃ t, step encodable = .next t :=
  ⟨flagsMean_encodable, rfl, rfl, encodable, rfl⟩

/-- `BUILD` of the counts of V1 in its load loop: `A` is loaded, `B` comes next. -/
def loading : State :=
  { withCounts with
    phase := .streaming (.buildLoad 0x42), nodes := [leafNode 0x41 2], pq := [0] }

/-- `BUILD` of the counts of V1 before its first merge (42_tree_builder.md R190). -/
def merging : State :=
  { withCounts with
    phase := .streaming .buildMerge
    nodes := [leafNode 0x41 2, leafNode 0x42 3, leafNode 0x43 4], pq := [0, 1, 2] }

/-- `GENCODE` of the tree of V10 in its walk: `C` has its code, node 3 comes next. -/
def walking : State :=
  { withTree with
    phase := .streaming (.gencode [(3, [true])]), code := codes [(0x43, [false])] }

theorem witness_StepKeepsMeaningOfFlags_loading : FlagsMean loading ∧
    ∃ t, step loading = .next t ∧ (t.phase == .streaming (.buildLoad 0x43) && t.pq == [0, 1]) = true :=
  ⟨⟨nofun, nofun, rfl, rfl, by decide +kernel⟩, exists_next (by decide +kernel)⟩

theorem witness_StepKeepsMeaningOfFlags_merging : FlagsMean merging ∧
    ∃ t, step merging = .next t ∧ (t.phase == .streaming .buildMerge && t.pq == [2, 3]) = true :=
  ⟨⟨nofun, nofun, rfl, rfl, by decide, by decide +kernel⟩, exists_next (by decide +kernel)⟩

theorem witness_StepKeepsMeaningOfFlags_walking : FlagsMean walking ∧ walking.tv = true ∧
    ∃ t, step walking = .next t ∧
      (t.phase == .streaming (.gencode [(0, [true, false]), (1, [true, true])])) = true :=
  ⟨⟨fun _ => treeMatches_of (by decide +kernel), nofun, rfl, rfl, by decide +kernel⟩, rfl,
    exists_next (by decide +kernel)⟩

theorem witness_CoreNeverDrivesHostSignals :
    ∃ t, step { encodable with script := [.cmd 0x06] } = .next t ∧ t.srcOk = true :=
  (exists_next (p := fun t => t.srcOk) (by decide +kernel)).imp fun _ h => h

theorem witness_EndedRunSucceedsOrFails : Inv encodable ∧ RunEnded encodable :=
  ⟨inv_encodable, rfl, rfl⟩

end Sys2Proof.Tests
end

section
/-! The command a busy core runs on its own reaches what `exec` answers in one step. -/

namespace Sys2Proof.Machine

open Sys2Proof.Safety

/-! ### A core left to itself -/

/-- A core left to itself gets from `s` to `t`, and is busy in every state before `t`
(46_control.md R285). -/
inductive Runs : State → State → Prop
  | refl (s : State) : Runs s s
  | head {s u t : State} (hb : s.busy = true) (h : tick s = .next u) (hr : Runs u t) : Runs s t

theorem Runs.trans {s u t : State} (h : Runs s u) (h' : Runs u t) : Runs s t := by
  induction h with
  | refl => exact h'
  | head hb h _ ih => exact .head hb h (ih h')

theorem Runs.single {s u : State} (hb : s.busy = true) (h : tick s = .next u) : Runs s u :=
  .head hb h (.refl u)

@[simp] theorem State.standAt_standAt (s : State) (p q : Task) :
    (s.standAt p).standAt q = s.standAt q := rfl

/-! ### The commands that read `ISTR` to its end -/

/-- A stream loop is run by steps that read one byte each, if the steps from position `p` do what
the body and the last lines of the loop do. -/
theorem runs_streamLoop {body : Byte → State → Option Err × State} {finish : State → State}
    {p : Task}
    (hend : ∀ s : State, s.istr = [] → Runs (s.standAt p) (finish s))
    (hraise : ∀ (s : State) b rest e u, s.istr = b :: rest →
      body b (s.setIstr rest) = (some e, u) → Runs (s.standAt p) (u.raise e))
    (hbyte : ∀ (s : State) b rest u, s.istr = b :: rest → body b (s.setIstr rest) = (none, u) →
      u.istr = rest ∧ Runs (s.standAt p) (u.standAt p))
    (s : State) : Runs (s.standAt p) (streamLoop body finish s.istr.length s) := by
  induction hi : s.istr generalizing s with
  | nil => exact hend s hi
  | cons b rest ih =>
    rw [← hi, streamLoop_cons body finish hi]
    rcases hb : body b (s.setIstr rest) with ⟨_ | e, u⟩
    · obtain ⟨hu, hr⟩ := hbyte s b rest u hi hb
      exact hr.trans (ih u hu)
    · exact hraise s b rest e u hi hb

theorem State.standAt_srcRead_nil {s : State} (p : Task) (h : s.istr = []) :
    (s.standAt p).srcRead = (none, s.standAt p) :=
  State.srcRead_nil h

theorem State.standAt_srcRead_cons {s : State} (p : Task) {b : Byte} {rest : List Byte}
    (h : s.istr = b :: rest) : (s.standAt p).srcRead = (some b, (s.setIstr rest).standAt p) :=
  State.srcRead_cons h

/-- One byte of `ANALYZE`: an overflow raised, or one more in one count (40_frequency.md R142,
R143). -/
theorem analyzeByte_cases (b : Byte) (s : State) :
    ((s.freqAt b).toNat = countMax s.cb ∧ analyzeByte b s = (some .countOverflow, s)) ∨
    ((s.freqAt b).toNat ≠ countMax s.cb ∧
      analyzeByte b s = (none, s.setFreq b (s.freqAt b + 1))) := by
  by_cases h : (s.freqAt b).toNat = countMax s.cb
  · exact .inl ⟨h, if_pos h⟩
  · exact .inr ⟨h, if_neg h⟩

theorem analyzeByte_standAt (b : Byte) (s : State) (p : Task) :
    analyzeByte b (s.standAt p) = ((analyzeByte b s).1, (analyzeByte b s).2.standAt p) := by
  rcases analyzeByte_cases b s with ⟨h, he⟩ | ⟨h, he⟩ <;> rw [he]
  · exact if_pos h
  · exact if_neg h

theorem runs_analyze (s : State) :
    Runs (s.standAt .analyze) (streamLoop analyzeByte State.complete s.istr.length s) := by
  have hbyte : ∀ (s : State) b rest r u, s.istr = b :: rest →
      analyzeByte b (s.setIstr rest) = (r, u) → tick (s.standAt .analyze) =
        match r with
        | some e => .next (u.raise e)
        | none => .next (u.standAt .analyze) := by
    intro s b rest r u hi hb
    change tickAnalyze _ = _
    rw [tickAnalyze, State.standAt_srcRead_cons _ hi]
    simp only [analyzeByte_standAt, hb]
    cases r <;> rfl
  refine runs_streamLoop ?_ ?_ ?_ s
  · intro s hi
    refine .single rfl ?_
    change tickAnalyze _ = _
    rw [tickAnalyze, State.standAt_srcRead_nil _ hi]
    rfl
  · exact fun s b rest e u hi hb => .single rfl (hbyte s b rest _ u hi hb)
  · refine fun s b rest u hi hb => ⟨?_, .single rfl (hbyte s b rest _ u hi hb)⟩
    rcases analyzeByte_cases b (s.setIstr rest) with ⟨_, he⟩ | ⟨_, he⟩ <;> rw [he] at hb
    · cases hb
    · cases hb
      rfl

/-! ### `ENCODE` and `DECODE` -/

theorem State.putbit_standAt (s : State) (p : Task) (c : Bool) :
    (s.standAt p).putbit c = (s.putbit c).standAt p := by
  rw [State.putbit, State.putbit, apply_ite (fun t : State => t.standAt p)]
  rfl

theorem State.walkBit_standAt (s : State) (p : Task) (c : Bool) :
    (s.standAt p).walkBit c = (s.walkBit c).standAt p := by
  rw [State.walkBit, State.walkBit, apply_ite (fun t : State => t.standAt p)]
  rfl

theorem runs_putbits (cs : List Bool) (s : State) :
    Runs (s.standAt (.encode cs)) ((s.putbits cs).standAt (.encode [])) := by
  induction cs generalizing s with
  | nil => exact .refl _
  | cons c cs ih =>
    have h : tick (s.standAt (.encode (c :: cs))) = .next ((s.putbit c).standAt (.encode cs)) := by
      change Host.Outcome.next _ = _
      rw [State.putbit_standAt, State.standAt_standAt]
    exact .head rfl h (ih (s.putbit c))

theorem runs_walkBits (cs : List Bool) (s : State) :
    Runs (s.standAt (.decode cs)) ((s.walkBits cs).standAt (.decode [])) := by
  induction cs generalizing s with
  | nil => exact .refl _
  | cons c cs ih =>
    have h : tick (s.standAt (.decode (c :: cs))) = .next ((s.walkBit c).standAt (.decode cs)) := by
      change Host.Outcome.next _ = _
      rw [State.walkBit_standAt, State.standAt_standAt]
    exact .head rfl h (ih (s.walkBit c))

theorem State.encodeFlush_setPhase (s : State) (p : Phase) :
    (s.setPhase p).encodeFlush = s.encodeFlush :=
  rfl

@[simp] theorem State.putbits_istr (s : State) (cs : List Bool) : (s.putbits cs).istr = s.istr := by
  rw [s.putbits_frame cs]

@[simp] theorem State.walkBits_istr (s : State) (cs : List Bool) :
    (s.walkBits cs).istr = s.istr := by
  rw [s.walkBits_frame cs]

theorem runs_encode (s : State) : Runs (s.standAt (.encode []))
    (streamLoop encodeByte State.encodeFlush s.istr.length s) := by
  refine runs_streamLoop ?_ ?_ ?_ s
  · intro s hi
    have h : tick (s.standAt (.encode [])) = .next (s.setPhase (.flushing .encode)) := by
      change tickEncode [] _ = _
      rw [tickEncode, State.standAt_srcRead_nil _ hi]
      rfl
    refine .head rfl h (.single rfl ?_)
    exact congrArg _ (s.encodeFlush_setPhase _)
  · intro s b rest e u hi hb
    refine .single rfl ?_
    change tickEncode [] _ = _
    rw [tickEncode, State.standAt_srcRead_cons _ hi]
    unfold encodeByte at hb
    split at hb <;> cases hb
    exact if_neg ‹_›
  · intro s b rest u hi hb
    unfold encodeByte at hb
    split at hb <;> cases hb
    refine ⟨State.putbits_istr _ _, ?_⟩
    refine .head rfl ?_ (runs_putbits _ (s.setIstr rest))
    change tickEncode [] _ = _
    rw [tickEncode, State.standAt_srcRead_cons _ hi]
    exact if_pos ‹_›

theorem runs_decode (s : State) : Runs (s.standAt (.decode []))
    (streamLoop decodeByte State.complete s.istr.length s) := by
  refine runs_streamLoop ?_ ?_ ?_ s
  · intro s hi
    have h : tick (s.standAt (.decode [])) = .next (s.setPhase (.flushing .decode)) := by
      change tickDecode [] _ = _
      rw [tickDecode, State.standAt_srcRead_nil _ hi]
      rfl
    exact .head rfl h (.single rfl rfl)
  · intro s b rest e u hi hb
    cases hb
  · intro s b rest u hi hb
    obtain ⟨-, rfl⟩ := Prod.mk.inj hb
    refine ⟨State.walkBits_istr _ _, ?_⟩
    refine .head rfl ?_ (runs_walkBits _ (s.setIstr rest))
    change tickDecode [] _ = _
    rw [tickDecode, State.standAt_srcRead_cons _ hi]
    rfl

theorem runs_decodeBody (s : State) : Runs (s.begin .decode) (decodeBody (s.begin .decode)) := by
  have ht : tick (s.begin .decode) = tickStart .decode (s.begin .decode) := rfl
  rw [tickStart] at ht
  rw [decodeBody]
  split
  next hleaf =>
    rw [if_pos hleaf] at ht
    split
    next he =>
      rw [if_pos he] at ht
      exact .head rfl ht (.single rfl rfl)
    next he =>
      rw [if_neg he] at ht
      exact .single rfl ht
  next hleaf =>
    rw [if_neg hleaf] at ht
    exact .head rfl ht (runs_decode ((s.begin .decode).setCur s.root))

/-! ### `WRHDR` and `RDHDR` -/

theorem allSymbols_drop {k : Nat} (h : k < 256) :
    allSymbols.drop k = BitVec.ofNat 8 k :: allSymbols.drop (k + 1) := by
  rw [List.drop_eq_getElem_cons (by simpa using h)]
  simp [allSymbols]

theorem allSymbols_drop_ge {k : Nat} (h : 256 ≤ k) : allSymbols.drop k = [] :=
  List.drop_eq_nil_of_le (by simpa using h)

theorem State.dstWriteAll_append (s : State) (as bs : List Byte) :
    s.dstWriteAll (as ++ bs) = (s.dstWriteAll as).dstWriteAll bs :=
  List.foldl_append

theorem tick_wrhdr {k : Nat} (hk : k < 256) (j : Nat) (s : State) :
    tick (s.standAt (.wrhdr k j)) =
      .next ((s.dstWrite (countByte (s.freqAt (BitVec.ofNat 8 k)) j)).standAt
        (.wrhdr (nextField s.cb k j).1 (nextField s.cb k j).2)) := by
  change tickWrhdr k j _ = _
  rw [tickWrhdr, if_pos hk]
  rfl

/-- The bytes of one count from byte `j` on. -/
theorem runs_countField {k : Nat} (hk : k < 256) (n j : Nat) (s : State)
    (hn : j + (n + 1) = countBytes s.cb) :
    Runs (s.standAt (.wrhdr k j))
      ((s.dstWriteAll ((List.range' j (n + 1)).map
        (countByte (s.freqAt (BitVec.ofNat 8 k))))).standAt (.wrhdr (k + 1) 0)) := by
  have ht := tick_wrhdr hk j s
  induction n generalizing j s with
  | zero =>
    rw [nextField, if_neg (by omega)] at ht
    exact .single rfl ht
  | succ n ih =>
    rw [nextField, if_pos (by omega)] at ht
    have hr := ih (j + 1) (s.dstWrite (countByte (s.freqAt (BitVec.ofNat 8 k)) j))
      (by rw [State.dstWrite_cb]; omega) (tick_wrhdr hk _ _)
    exact .head rfl ht hr

theorem runs_wrhdr (k : Nat) (s : State) :
    Runs (s.standAt (.wrhdr k 0))
      (s.dstWriteAll ((allSymbols.drop k).flatMap s.countField)).complete := by
  induction hd : 256 - k generalizing k s with
  | zero =>
    rw [allSymbols_drop_ge (by omega)]
    refine .single rfl ?_
    change tickWrhdr k 0 _ = _
    rw [tickWrhdr, if_neg (by omega)]
    rfl
  | succ d ih =>
    have hk : k < 256 := by omega
    obtain ⟨n, hn⟩ := Nat.exists_eq_succ_of_ne_zero (countBytes_pos s.cb).ne'
    have hf := runs_countField hk n 0 s (by omega)
    rw [← Nat.succ_eq_add_one n, ← hn, ← List.range_eq_range'] at hf
    refine hf.trans ?_
    have hr := ih (k + 1) (s.dstWriteAll (s.countField (BitVec.ofNat 8 k))) (by omega)
    rw [allSymbols_drop hk, List.flatMap_cons, State.dstWriteAll_append]
    have hfield : (s.dstWriteAll (s.countField (BitVec.ofNat 8 k))).countField = s.countField := by
      rw [State.dstWriteAll_eq]
      rfl
    rw [hfield] at hr
    exact hr

theorem tick_rdhdr_nil {k : Nat} (hk : k < 256) (j : Nat) (v : Count) {s : State}
    (hi : s.istr = []) :
    tick (s.standAt (.rdhdr k j v)) = .next (s.raise .malformedStream) := by
  change tickRdhdr k j v _ = _
  rw [tickRdhdr, if_pos hk, State.standAt_srcRead_nil _ hi]
  rfl

theorem tick_rdhdr_cons {k : Nat} (hk : k < 256) (j : Nat) (v : Count) {s : State} {b : Byte}
    {rest : List Byte} (hi : s.istr = b :: rest) :
    tick (s.standAt (.rdhdr k j v)) =
      if j + 1 < countBytes s.cb then
        .next ((s.setIstr rest).standAt (.rdhdr k (j + 1) (v + countPart b j)))
      else .next (((s.setIstr rest).setFreq (BitVec.ofNat 8 k) (v + countPart b j)).standAt
        (.rdhdr (k + 1) 0 0)) := by
  change tickRdhdr k j v _ = _
  rw [tickRdhdr, if_pos hk, State.standAt_srcRead_cons _ hi]
  rfl

/-- The bytes of one count from byte `j` on, onto the part `v`. -/
theorem runs_readCount {k : Nat} (hk : k < 256) (n j : Nat) (v : Count) (s : State)
    (hn : j + (n + 1) = countBytes s.cb) {r : Option Count} {u : State}
    (hr : readCount (n + 1) j v s = (r, u)) :
    Runs (s.standAt (.rdhdr k j v))
      (r.elim (u.raise .malformedStream)
        (fun w => (u.setFreq (BitVec.ofNat 8 k) w).standAt (.rdhdr (k + 1) 0 0))) := by
  rcases s.srcRead_cases with ⟨hi, hs⟩ | ⟨b, rest, hi, hs⟩ <;> rw [readCount, hs] at hr
  · cases hr
    exact .single rfl (tick_rdhdr_nil hk j v hi)
  · have ht := tick_rdhdr_cons hk j v hi
    cases n with
    | zero =>
      rw [if_neg (by omega)] at ht
      cases hr
      exact .single rfl ht
    | succ n =>
      rw [if_pos (by omega)] at ht
      exact .head rfl ht
        (runs_readCount hk n (j + 1) _ (s.setIstr rest) (by rw [State.setIstr_cb]; omega) hr)

theorem runs_rdhdr (k : Nat) (s : State) :
    Runs (s.standAt (.rdhdr k 0 0)) (readHeader (allSymbols.drop k) s) := by
  induction hd : 256 - k generalizing k s with
  | zero =>
    rw [allSymbols_drop_ge (by omega)]
    refine .single rfl ?_
    change tickRdhdr k 0 0 _ = _
    rw [tickRdhdr, if_neg (by omega)]
    rfl
  | succ d ih =>
    have hk : k < 256 := by omega
    obtain ⟨n, hn⟩ := Nat.exists_eq_succ_of_ne_zero (countBytes_pos s.cb).ne'
    rw [allSymbols_drop hk, readHeader, hn]
    rcases hr : readCount n.succ 0 0 s with ⟨_ | w, u⟩
    · exact runs_readCount hk n 0 0 s (by omega) hr
    · exact (runs_readCount hk n 0 0 s (by omega) hr).trans
        (ih (k + 1) (u.setFreq (BitVec.ofNat 8 k) w) (by omega))

/-! ### `BUILD` -/

/-- `t` with the counts, the tree, the order and the flags of `u`: with everything that `BUILD`
reads or writes, but for its last phase. -/
def State.withTreeOf (t u : State) : State :=
  { t with freq := u.freq, nodes := u.nodes, pq := u.pq, root := u.root, tv := u.tv, cv := u.cv }

section
variable (t s : State)

@[simp] theorem State.withTreeOf_pq : (t.withTreeOf s).pq = s.pq := rfl
@[simp] theorem State.withTreeOf_weight (n : NodeIdx) :
    (t.withTreeOf s).weight n = s.weight n := rfl
@[simp] theorem State.withTreeOf_freqAt (b : Byte) : (t.withTreeOf s).freqAt b = s.freqAt b := rfl

theorem State.standAt_eq_withTreeOf (p : Task) : s.standAt p = (s.standAt p).withTreeOf s := rfl

theorem State.insert_withTreeOf (n : NodeIdx) :
    (t.withTreeOf s).insert n = (s.insert n).map t.withTreeOf := by
  have hp : (t.withTreeOf s).insertPos n = s.insertPos n := rfl
  simp only [State.insert, State.withTreeOf_pq, hp]
  split <;> rfl

theorem State.alloc_withTreeOf (r : Node) :
    (t.withTreeOf s).alloc r = (s.alloc r).map (Prod.map id t.withTreeOf) := by
  rcases s.alloc_cases r with ⟨hn, he⟩ | ⟨hn, he⟩ <;> rw [he]
  · exact dif_pos (c := (t.withTreeOf s).nodes.length < 511) hn
  · exact dif_neg (c := (t.withTreeOf s).nodes.length < 511) (Nat.not_lt.mpr hn)

theorem State.takeEntry_withTreeOf :
    (t.withTreeOf s).takeEntry = s.takeEntry.map (Prod.map id t.withTreeOf) := by
  cases h : s.pq with
  | nil => rw [State.takeEntry_nil h, State.takeEntry_nil (s := t.withTreeOf s) h]; rfl
  | cons n rest => rw [State.takeEntry_cons h, State.takeEntry_cons (s := t.withTreeOf s) h]; rfl

theorem loadSymbol_withTreeOf (b : Byte) :
    loadSymbol (t.withTreeOf s) b = (loadSymbol s b).map t.withTreeOf := by
  simp only [loadSymbol, State.withTreeOf_freqAt, State.leaf, State.alloc_withTreeOf]
  split
  · rcases s.alloc _ with f | ⟨n, s1⟩
    · rfl
    · exact State.insert_withTreeOf t s1 n
  · rfl

theorem loadSymbols_withTreeOf (bs : List Byte) :
    loadSymbols bs (t.withTreeOf s) = (loadSymbols bs s).map t.withTreeOf := by
  induction bs generalizing s with
  | nil => rfl
  | cons b bs ih =>
    simp only [loadSymbols, loadSymbol_withTreeOf]
    rcases loadSymbol s b with f | s1
    · rfl
    · exact ih s1

theorem mergeOnce_withTreeOf : mergeOnce (t.withTreeOf s) = (mergeOnce s).map t.withTreeOf := by
  simp only [mergeOnce, State.takeEntry_withTreeOf]
  rcases s.takeEntry with f | ⟨a, s1⟩
  · rfl
  simp only [Except.map, Prod.map, id, State.takeEntry_withTreeOf]
  rcases s1.takeEntry with f | ⟨b, s2⟩
  · rfl
  simp only [Except.map, Prod.map, id, State.internal, State.alloc_withTreeOf,
    State.withTreeOf_weight]
  rcases s2.alloc _ with f | ⟨m, s3⟩
  · rfl
  · exact State.insert_withTreeOf t s3 m

theorem mergeLoop_withTreeOf (k : Nat) :
    mergeLoop k (t.withTreeOf s) = (mergeLoop k s).map t.withTreeOf := by
  induction k generalizing s with
  | zero => rfl
  | succ k ih =>
    simp only [mergeLoop, State.withTreeOf_pq, mergeOnce_withTreeOf]
    split
    · rcases mergeOnce s with f | s1
      · rfl
      · exact ih s1
    · rfl

theorem buildFinish_withTreeOf :
    (buildFinish (t.withTreeOf s)) = (buildFinish s).map t.complete.withTreeOf := by
  simp only [buildFinish, State.takeEntry_withTreeOf]
  rcases s.takeEntry with f | ⟨r, s1⟩ <;> rfl

/-- What `BUILD` makes of its tree and flags depends on nothing else. -/
theorem buildTail_withTreeOf :
    (buildTail (t.withTreeOf s)).map treePart = (buildTail s).map treePart := by
  simp only [buildTail, State.withTreeOf_pq, mergeLoop_withTreeOf]
  split
  · rfl
  · rcases mergeLoop s.pq.length s with f | s1
    · rfl
    · simp only [Except.map, buildFinish_withTreeOf]
      rcases buildFinish s1 with f | s2 <;> rfl

/-- The result of `BUILD` is a function of the counts (42_tree_builder.md R187). -/
theorem buildBody_congr {s t : State} (h : t.freq = s.freq) :
    (buildBody t).map treePart = (buildBody s).map treePart := by
  have hs : t.buildStart = t.buildStart.withTreeOf s.buildStart := by
    simp [State.withTreeOf, State.buildStart, State.clearFlags, h]
  rw [buildBody, buildBody, hs, loadSymbols_withTreeOf]
  rcases loadSymbols allSymbols s.buildStart with f | s1
  · rfl
  · exact buildTail_withTreeOf _ s1

end

/-- The load and merge steps at any position. -/
theorem State.withTreeOf_standAt {s u : State} (p : Task)
    (h : u = { s with nodes := u.nodes, pq := u.pq }) :
    (s.standAt p).withTreeOf u = u.standAt p := by
  rw [h]
  rfl

theorem loadSymbol_standAt {s u : State} {b : Byte} (p : Task) (h : loadSymbol s b = .ok u) :
    loadSymbol (s.standAt p) b = .ok (u.standAt p) := by
  rw [State.standAt_eq_withTreeOf, loadSymbol_withTreeOf, h,
    ← State.withTreeOf_standAt p (loadSymbol_frame h)]
  rfl

theorem mergeOnce_standAt {s u : State} (p : Task) (h : mergeOnce s = .ok u) :
    mergeOnce (s.standAt p) = .ok (u.standAt p) := by
  rw [State.standAt_eq_withTreeOf, mergeOnce_withTreeOf, h,
    ← State.withTreeOf_standAt p (mergeOnce_frame h)]
  rfl

/-- `BUILD` ends with the least entry as its root, `TV = 1` (42_tree_builder.md R185). -/
theorem buildFinish_ok {s t : State} (h : buildFinish s = .ok t) :
    ∃ r rest, s.pq = r :: rest ∧ t = (((s.setPq rest).setRoot r).setTv).complete := by
  rcases hpq : s.pq with _ | ⟨r, rest⟩
  · rw [buildFinish, State.takeEntry_nil hpq] at h
    cases h
  · rw [buildFinish, State.takeEntry_cons hpq] at h
    cases h
    exact ⟨r, rest, rfl, rfl⟩

theorem buildFinish_cons {s : State} {r : NodeIdx} {rest : List NodeIdx} (h : s.pq = r :: rest) :
    buildFinish s = .ok (((s.setPq rest).setRoot r).setTv).complete := by
  rw [buildFinish, State.takeEntry_cons h]

theorem runs_buildMerge (k : Nat) {s u t : State} (hk : s.pq.length ≤ k + 1)
    (hu : mergeLoop k s = .ok u) (ht : buildFinish u = .ok t) :
    Runs (s.standAt .buildMerge) t := by
  have hlast : ∀ s : State, ¬ s.pq.length > 1 → buildFinish s = .ok t →
      Runs (s.standAt .buildMerge) t := by
    intro s hl ht
    obtain ⟨r, rest, hpq, rfl⟩ := buildFinish_ok ht
    refine .single rfl ?_
    change tickMerge _ = _
    rw [tickMerge, if_neg (by rwa [State.standAt_pq]), buildFinish_cons (s := s.standAt _) hpq]
    rfl
  induction k generalizing s with
  | zero =>
    cases hu
    exact hlast _ (by omega) ht
  | succ k ih =>
    rw [mergeLoop] at hu
    split at hu
    next hl =>
      rcases hm : mergeOnce s with f | s1
      · rw [hm] at hu
        cases hu
      · rw [hm] at hu
        have hlen := (mergeOnce_lengths hm).1
        refine .head rfl ?_ (ih (by omega) hu)
        change tickMerge _ = _
        rw [tickMerge, if_pos (by rwa [State.standAt_pq]), mergeOnce_standAt _ hm]
        rfl
    next hl =>
      cases hu
      exact hlast _ hl ht

theorem runs_buildTail {s t : State} (h : buildTail s = .ok t) (k : Nat) (hk : 256 ≤ k) :
    Runs (s.standAt (.buildLoad k)) t := by
  have htick : tick (s.standAt (.buildLoad k)) =
      if s.pq = [] then .next (s.raise .emptyOrUnreadableInput)
      else .next (s.standAt .buildMerge) := by
    change tickLoad k _ = _
    rw [tickLoad, if_neg (by omega)]
    rfl
  rw [buildTail] at h
  split at h
  next hpq =>
    cases h
    rw [if_pos hpq] at htick
    exact .single rfl htick
  next hpq =>
    rw [if_neg hpq] at htick
    rcases hm : mergeLoop s.pq.length s with f | u
    · rw [hm] at h
      cases h
    · rw [hm] at h
      exact .head rfl htick (runs_buildMerge s.pq.length (by omega) hm h)

theorem runs_buildLoad (k : Nat) {s u t : State} (hu : loadSymbols (allSymbols.drop k) s = .ok u)
    (ht : buildTail u = .ok t) : Runs (s.standAt (.buildLoad k)) t := by
  induction hd : 256 - k generalizing k s with
  | zero =>
    rw [allSymbols_drop_ge (by omega)] at hu
    cases hu
    exact runs_buildTail ht k (by omega)
  | succ d ih =>
    have hk : k < 256 := by omega
    rw [allSymbols_drop hk, loadSymbols] at hu
    rcases hl : loadSymbol s (BitVec.ofNat 8 k) with f | s1
    · rw [hl] at hu
      cases hu
    · rw [hl] at hu
      refine .head rfl ?_ (ih (k + 1) hu (by omega))
      change tickLoad k _ = _
      rw [tickLoad, if_pos hk, loadSymbol_standAt _ hl]
      rfl

/-! ### `GENCODE` -/

theorem State.isLeaf_standAt (s : State) (p : Task) (n : NodeIdx) :
    (s.standAt p).isLeaf n = s.isLeaf n := rfl

theorem runs_walk (k : Nat) {n : NodeIdx} {path : List Bool} {s t : State}
    (rest : List (NodeIdx × List Bool)) (hk : path.length + k = 256)
    (h : walk k n path s = .ok t) :
    Runs (s.standAt (.gencode ((n, path) :: rest))) (t.standAt (.gencode rest)) := by
  induction k generalizing n path s t rest with
  | zero => cases h
  | succ k ih =>
    have hlen : ¬ path.length > Config.maxLen := by simp only [Config.maxLen]; omega
    cases hl : s.isLeaf n with
    | true =>
      rw [walk_leaf path hl] at h
      cases h
      refine .single rfl ?_
      change tickGencode ((n, path) :: rest) (s.standAt _) = _
      rw [tickGencode, if_neg hlen]
      exact if_pos hl
    | false =>
      rcases h1 : walk k (s.nodeAt n).left (path ++ [false]) s with f | s1
      · rw [walk, if_neg (by simp [hl]), h1] at h
        cases h
      · rw [walk_internal path hl h1] at h
        have hleft := ih ((((s.nodeAt n).right, path ++ [true])) :: rest)
          (by rw [List.length_append, List.length_singleton]; omega) h1
        have hright := ih rest (by rw [List.length_append, List.length_singleton]; omega) h
        refine .head rfl ?_ (hleft.trans hright)
        change tickGencode ((n, path) :: rest) (s.standAt _) = _
        rw [tickGencode, if_neg hlen]
        exact if_neg (by simp [State.isLeaf_standAt, hl])

/-! ### Every command -/

/-- An accepted command that the host waits for ends where the core, left to itself with that
command, gets to (20_memory.md R79, notes/assumptions/2.md). -/
theorem runs_of_exec {i : Instr} {s t : State} (ha : s.acceptance (some i) = .runs i)
    (h : exec i s = .next t) : Runs (s.begin i) t := by
  cases i with
  | clear =>
    rw [exec, execClear, runCommand_of_runs _ ha] at h
    exact .single rfl h
  | analyze =>
    rw [exec, execAnalyze, runCommand_of_runs _ ha] at h
    cases h
    exact .head rfl rfl (runs_analyze (s.begin .analyze).zeroCounts)
  | build =>
    rw [exec, execBuild, runCommand_of_runs _ ha, buildBody] at h
    rcases hl : loadSymbols allSymbols (s.begin .build).buildStart with f | u
    · rw [hl] at h
      cases h
    · rw [hl] at h
      rcases ht : buildTail u with f | t'
      · simp only [ht] at h
        cases h
      · simp only [ht] at h
        cases h
        exact .head rfl rfl (runs_buildLoad 0 hl ht)
  | gencode =>
    rw [exec, execGencode, runCommand_of_runs _ ha, gencodeBody] at h
    rcases hw : walk (Config.maxLen + 1) (s.begin .gencode).root []
      (s.begin .gencode).gencodeStart with f | u
    · rw [hw] at h
      cases h
    · rw [hw] at h
      cases h
      have hr := runs_walk _ [] rfl hw
      exact .head rfl rfl (hr.trans (.single rfl rfl))
  | wrhdr =>
    rw [exec, execWrhdr, runCommand_of_runs _ ha] at h
    cases h
    exact .head rfl rfl (runs_wrhdr 0 (s.begin .wrhdr))
  | encode =>
    rw [exec, execEncode, runCommand_of_runs _ ha] at h
    cases h
    exact .head rfl rfl (runs_encode (s.begin .encode).clearAcc)
  | rdhdr =>
    rw [exec, execRdhdr, runCommand_of_runs _ ha] at h
    cases h
    exact .head rfl rfl (runs_rdhdr 0 (s.begin .rdhdr).zeroCounts)
  | decode =>
    rw [exec, execDecode, runCommand_of_runs _ ha] at h
    cases h
    exact runs_decodeBody s

end Sys2Proof.Machine
end

section
/-! What one step of the whole machine is made of: steps of the core, acceptance, reset, reads, and
the host's stream actions. -/

namespace Sys2Proof.Machine

open Sys2Proof.Safety

/-- A stream action of the host on a ready core (10_state.md R55, R56). -/
inductive StreamAction : HostItem → State → State → Prop
  | src {s : State} (bytes : List Byte) (h : s.busy = false) :
    StreamAction (.src bytes) s (s.attachSource bytes)
  | nosrc {s : State} (h : s.busy = false) : StreamAction .nosrc s s.detachSource
  | dst {s : State} (h : s.busy = false) : StreamAction .dst s s.attachDest
  | nodst {s : State} (h : s.busy = false) : StreamAction .nodst s s.detachDest

/-- The things a step does to the machine, but for the stream actions: the core's own step, the
acceptance of a command, a fault of acceptance, reset, a register read, and what becomes of the
host's script. -/
inductive CoreMove : State → State → Prop
  | core {s t : State} (h : tick s = .next t) : CoreMove s t
  | accept {s : State} {i : Instr} (h : s.acceptance (some i) = .runs i) : CoreMove s (s.begin i)
  | fault {s : State} {c : Option Instr} {e : Err} (h : s.acceptance c = .raised e) :
    CoreMove s (s.raise e)
  | reset (s : State) : CoreMove s s.clearCore
  | read (s : State) (a : BitVec 12) : CoreMove s (s.readRegister a)
  | script (s : State) (rest : List HostItem) : CoreMove s { s with script := rest }

/-- Some of those things, one after the other. -/
abbrev CoreMoves : State → State → Prop :=
  Relation.ReflTransGen CoreMove

theorem CoreMoves.keeps {P : State → Prop} (hP : ∀ s t, P s → CoreMove s t → P t) {s t : State}
    (h : CoreMoves s t) (hs : P s) : P t := by
  induction h with
  | refl => exact hs
  | tail _ h ih => exact hP _ _ ih h

theorem Runs.coreMoves {s t : State} (h : Runs s t) : CoreMoves s t := by
  induction h with
  | refl => exact .refl
  | head _ h _ ih => exact .head (.core h) ih

theorem exec_coreMoves {i : Instr} {s t : State} (h : exec i s = .next t) : CoreMoves s t := by
  obtain ⟨body, -, he⟩ := exec_eq_runCommand i
  rcases runCommand_cases s i body with ⟨_, hc⟩ | ⟨e, ha, hc⟩ | ⟨ha, _⟩
  · rw [he, hc] at h
    cases h
    exact .refl
  · rw [he, hc] at h
    cases h
    exact .single (.fault ha)
  · exact .head (.accept ha) (runs_of_exec ha h).coreMoves

theorem issueWord_coreMoves {w : Byte} {s t : State} (h : issueWord w s = .next t) :
    CoreMoves s t := by
  rw [issueWord] at h
  split at h
  · exact exec_coreMoves h
  · rw [illegalWord] at h
    split at h <;> cases h
    · exact .refl
    · exact .refl
    · exact .single (.fault ‹_›)
    · exact .refl

theorem offerWord_coreMoves (w : Byte) (s : State) : CoreMoves s (offerWord w s) := by
  rw [offerWord]
  split
  · exact .refl
  · exact .refl
  · exact .single (.fault ‹_›)
  next i h =>
    rcases hd : decodeWord w with _ | j
    · rw [hd] at h
      cases hp : s.phase <;> simp [State.acceptance, State.check, hp] at h
    · rw [hd] at h
      obtain rfl := State.acceptance_runs_eq h
      exact .single (.accept h)

theorem whenReady_next {s t u : State} (h : whenReady s t = .next u) :
    s.busy = false ∧ u = t := by
  rw [whenReady] at h
  split at h
  · cases h
  · cases h
    exact ⟨by simpa using ‹¬ s.busy = true›, rfl⟩

/-- A host action that answers a next state is a stream action, or does what a core may do. -/
theorem hostAction_cases {a : HostItem} {s t : State} (h : hostAction a s = .next t) :
    StreamAction a s t ∨ CoreMoves s t := by
  cases a with
  | reset => cases h; exact .inr (.single (.reset s))
  | src bytes => obtain ⟨hb, rfl⟩ := whenReady_next h; exact .inl (.src bytes hb)
  | nosrc => obtain ⟨hb, rfl⟩ := whenReady_next h; exact .inl (.nosrc hb)
  | dst => obtain ⟨hb, rfl⟩ := whenReady_next h; exact .inl (.dst hb)
  | nodst => obtain ⟨hb, rfl⟩ := whenReady_next h; exact .inl (.nodst hb)
  | cmd w => exact .inr (issueWord_coreMoves h)
  | offer w => cases h; exact .inr (offerWord_coreMoves w s)
  | wait => exact .inr (.single (.core h))
  | rd a => cases h; exact .inr (.single (.read s a))
  | stopIfError =>
    rw [hostAction] at h
    split at h <;> cases h
    · exact .inr .refl
    · exact .inr (.single (.script s []))

/-- What a step of the machine can do: the next item of the script is a stream action and is done,
or the step is made of the core's own steps, acceptance, reset, reads and the script. -/
theorem step_cases {s t : State} (h : step s = .next t) :
    (∃ a rest, s.script = a :: rest ∧ StreamAction a { s with script := rest } t) ∨
      CoreMoves s t := by
  rcases hs : s.script with _ | ⟨a, rest⟩
  · rw [step_nil hs] at h
    exact .inr (.single (.core h))
  have hact : hostAction a { s with script := rest } = .next t →
      (∃ a' rest', a :: rest = a' :: rest' ∧ StreamAction a' { s with script := rest' } t) ∨
        CoreMoves s t := fun h => (hostAction_cases h).imp
    (fun ha => ⟨a, rest, rfl, ha⟩) (fun hm => .head (.script s rest) hm)
  by_cases hc : ∃ w, a = .cmd w
  · obtain ⟨w, rfl⟩ := hc
    rw [step_cmd hs] at h
    split at h
    · exact .inr (.single (.core h))
    · exact hact h
  · rw [step_action hs (fun w hw => hc ⟨w, hw⟩)] at h
    exact hact h

/-- What every part of a step keeps, every step keeps. -/
theorem step_keeps {P : State → Prop} (hP : ∀ s t, P s → CoreMove s t → P t)
    (hstream : ∀ a s t, P s → StreamAction a s t → P t) {s t : State} (hs : P s)
    (h : step s = .next t) : P t := by
  rcases step_cases h with ⟨a, rest, -, ha⟩ | hm
  · exact hstream _ _ _ (hP _ _ hs (.script s rest)) ha
  · exact hm.keeps hP hs

/-! ### Acceptance -/

theorem State.check_raised {s : State} {c : Option Instr} {e : Err} (h : s.check c = .raised e) :
    e ≠ .none := by
  rcases c with _ | i
  · cases h
    nofun
  · rcases s.check_cases i with ⟨_, hc⟩ | ⟨_, _, _, hc⟩ | ⟨_, _, _, _, hc⟩ | ⟨_, _, _, hc⟩ <;>
      rw [hc] at h <;> cases h <;> nofun

theorem State.acceptance_raised {s : State} {c : Option Instr} {e : Err}
    (h : s.acceptance c = .raised e) : e ≠ .none := by
  rw [State.acceptance] at h
  split at h
  · cases h
  · cases h
  · split at h
    · exact State.check_raised h
    · cases h
  · exact State.check_raised h
  · exact State.check_raised h

theorem State.flagHolds_of_check {s : State} {i : Instr} (h : s.check (some i) = .runs i) :
    s.flagHolds (needs i).flag = true := by
  rcases s.check_cases i with ⟨_, hc⟩ | ⟨_, _, _, hc⟩ | ⟨_, _, _, _, hc⟩ | ⟨hf, _, _, _⟩
  · rw [hc] at h; cases h
  · rw [hc] at h; cases h
  · rw [hc] at h; cases h
  · exact hf

/-- A command that runs finds its flag; in `PHASE` 4 it is `CLEAR` (46_control.md R283). -/
theorem State.acceptance_runs {s : State} {i : Instr} (h : s.acceptance (some i) = .runs i) :
    s.flagHolds (needs i).flag = true ∧ (s.phase = .error → i = .clear) := by
  rw [State.acceptance] at h
  split at h
  · cases h
  · cases h
  next hp =>
    split at h
    next hi => exact ⟨State.flagHolds_of_check h, fun _ => Option.some.inj hi⟩
    next => cases h
  next hp => exact ⟨State.flagHolds_of_check h, by simp [hp]⟩
  next hp => exact ⟨State.flagHolds_of_check h, by simp [hp]⟩

end Sys2Proof.Machine
end

section
/-! The invariant of the core's registers and memories is kept by every step. -/

namespace Sys2Proof.Machine

open Sys2Proof.Safety

/-- The clauses of `Inv` that do not speak of `PHASE` or `ERR`. -/
structure RecordsOk (s : State) : Prop where
  counts : CountsFit s
  arena : s.nnodes ≤ 511
  order : s.pqlen ≤ 256
  acc : AccClean s
  code : ∀ b, CodeRecOk (s.codeAt b)
  source : s.srcOk = false → s.istr = []
  flags : s.cv = true → s.tv = true

/-- The clauses `part` and `task` of `Inv` for a command that stands at a position. -/
def StandsOk (s : State) : Task → Prop
  | .start i => s.flagHolds (needs i).flag = true
  | .analyze => s.tv = false ∧ s.cv = false
  | .rdhdr _ j v => (s.tv = false ∧ s.cv = false) ∧ j < countBytes s.cb ∧ v.toNat < 2 ^ (8 * j)
  | .buildLoad _ => s.tv = false ∧ s.cv = false
  | .buildMerge => s.tv = false ∧ s.cv = false
  | .gencode _ => s.tv = true ∧ s.cv = false
  | .wrhdr _ _ => True
  | .encode _ => True
  | .decode _ => True

theorem recordsOk_of_inv {s : State} (h : Inv s) : RecordsOk s :=
  ⟨h.counts, h.arena, h.order, h.acc, h.code, h.source, h.flags⟩

theorem err_none_of_inv {s : State} (h : Inv s) (hp : s.phase ≠ .error) : s.err = .none := by
  by_contra he
  exact hp (h.err.mp he)

theorem standsOk_of_inv {s : State} (h : Inv s) {p : Task} (hp : s.phase = .streaming p) :
    StandsOk s p := by
  have ht := h.task
  have hq := h.part
  unfold PartFits at hq
  rw [hp] at ht hq
  cases p with
  | rdhdr sym j v => exact ⟨ht, hq⟩
  | _ => exact ht

/-- The invariant in `PHASE` 1. -/
theorem inv_of_streaming {s : State} {p : Task} (hp : s.phase = .streaming p) (hr : RecordsOk s)
    (he : s.err = .none) (hs : StandsOk s p) : Inv s := by
  obtain ⟨hcounts, harena, horder, hacc, hcode, hsource, hflags⟩ := hr
  refine ⟨by simp [ErrMatches, he, hp], hcounts, ?_, harena, horder, hacc, hcode, hsource, hflags,
    ?_⟩
  · unfold PartFits
    rw [hp]
    cases p with
    | rdhdr sym j v => exact hs.2
    | _ => trivial
  · rw [hp]
    cases p with
    | rdhdr sym j v => exact hs.1
    | _ => exact hs

/-- The invariant in `PHASE` 0, 2 and 3. -/
theorem inv_of_calm {s : State} (hp : ∀ p, s.phase ≠ .streaming p) (hne : s.phase ≠ .error)
    (hr : RecordsOk s) (he : s.err = .none) : Inv s := by
  obtain ⟨hcounts, harena, horder, hacc, hcode, hsource, hflags⟩ := hr
  have herr : ErrMatches s := by simp [ErrMatches, he, hne]
  cases hphase : s.phase with
  | streaming p => exact absurd hphase (hp p)
  | _ =>
    exact ⟨herr, hcounts, by simp [PartFits, hphase], harena, horder, hacc, hcode, hsource, hflags,
      by simp [hphase]⟩

/-! ### What keeps the records -/

section
variable {s : State}

theorem RecordsOk.setPhase (h : RecordsOk s) (p : Phase) : RecordsOk (s.setPhase p) := { h with }

theorem RecordsOk.begin (h : RecordsOk s) (i : Instr) : RecordsOk (s.begin i) := { h with }

theorem RecordsOk.raise (h : RecordsOk s) (e : Err) : RecordsOk (s.raise e) := { h with }

theorem RecordsOk.setCur (h : RecordsOk s) (n : NodeIdx) : RecordsOk (s.setCur n) := { h with }

theorem RecordsOk.dstWrite (h : RecordsOk s) (b : Byte) : RecordsOk (s.dstWrite b) := { h with }

/-- A byte is read: a source that holds one is attached. -/
theorem RecordsOk.setIstr (h : RecordsOk s) {b : Byte} {rest : List Byte}
    (hi : s.istr = b :: rest) : RecordsOk (s.setIstr rest) :=
  { h with source := fun ho => by simp [h.source ho] at hi }

theorem RecordsOk.setFreq (h : RecordsOk s) (b : Byte) {v : Count} (hv : v.toNat ≤ countMax s.cb) :
    RecordsOk (s.setFreq b v) :=
  { h with
    counts := fun c => by
      rw [State.freqAt_setFreq]
      split
      · exact hv
      · exact h.counts c }

theorem RecordsOk.zeroCounts (h : RecordsOk s) : RecordsOk s.zeroCounts :=
  { h with
    counts := fun c => by simp [State.freqAt]
    flags := nofun }

theorem RecordsOk.buildStart (h : RecordsOk s) : RecordsOk s.buildStart :=
  { h with
    arena := Nat.zero_le _
    order := Nat.zero_le _
    flags := nofun }

theorem codeRecOk_none : CodeRecOk CodeRec.none :=
  ⟨fun _ => rfl, by simp [CodeRec.none]⟩

/-- The record of a path of at most 255 bits has the form of 10_state.md R45. -/
theorem codeRecOk_codeOfPath {path : List Bool} (h : path.length ≤ 255) :
    CodeRecOk (codeOfPath path) := by
  refine ⟨nofun, ?_⟩
  have hlen : (codeOfPath path).len.toNat = path.length := by
    simp only [codeOfPath, BitVec.toNat_ofNat]
    omega
  have hnum := pathNumber_lt path
  rw [hlen]
  exact lt_of_le_of_lt (Nat.mod_le _ _) hnum

theorem RecordsOk.gencodeStart (h : RecordsOk s) : RecordsOk s.gencodeStart :=
  { h with
    code := fun b => by simpa [State.codeAt] using codeRecOk_none
    flags := nofun }

theorem RecordsOk.visitLeaf (h : RecordsOk s) (n : NodeIdx) {path : List Bool}
    (hp : path.length ≤ 255) : RecordsOk (s.visitLeaf n path) :=
  { h with
    code := fun b => by
      rw [State.visitLeaf, State.codeAt_setCode]
      split
      · exact codeRecOk_codeOfPath hp
      · exact h.code b }

theorem RecordsOk.clearAcc (h : RecordsOk s) : RecordsOk s.clearAcc :=
  { h with acc := fun k _ => by simp }

/-- A bit is put at the top of the unused bits, which leaves the others 0 (10_state.md R48). -/
theorem RecordsOk.putbit (h : RecordsOk s) (c : Bool) : RecordsOk (s.putbit c) := by
  rcases s.putbit_cases c with ⟨_, he⟩ | ⟨hn, he⟩ <;> rw [he]
  · exact { h with acc := fun k _ => by simp }
  · refine { h with acc := fun k hk => ?_ }
    have hval : (s.accn + 1).val = s.accn.val + 1 := by
      rw [Fin.val_add_one_of_lt' (by omega)]
    rw [hval] at hk
    rw [getLsbD_setBit _ _ _ _ (by omega), if_neg (by omega)]
    exact h.acc k (by omega)

theorem RecordsOk.walkBit (h : RecordsOk s) (c : Bool) : RecordsOk (s.walkBit c) := by
  rcases s.walkBit_cases c with ⟨_, he⟩ | ⟨_, he⟩ <;> rw [he]
  · exact { h with }
  · exact { h with }

/-- The arena and the order stay within their capacity: their guards see to it. -/
theorem RecordsOk.loadSymbol (h : RecordsOk s) {b : Byte} {t : State}
    (ht : loadSymbol s b = .ok t) : RecordsOk t := by
  by_cases hb : s.freqAt b = 0
  · rw [loadSymbol_zero hb] at ht
    cases ht
    exact h
  · by_cases hn : s.nodes.length < 511
    · rw [loadSymbol_nonzero hb hn] at ht
      have hlen := State.insert_length ht
      obtain ⟨hq, rfl⟩ := State.insert_ok ht
      exact { h with
        arena := by simpa [State.nnodes] using hn
        order := by
          rw [State.pqlen, hlen]
          exact hq }
    · rw [Machine.loadSymbol, if_pos hb] at ht
      simp [State.leaf, State.alloc, hn] at ht

theorem RecordsOk.mergeOnce (h : RecordsOk s) {t : State} (ht : mergeOnce s = .ok t) :
    RecordsOk t := by
  obtain ⟨hq, hn⟩ := mergeOnce_lengths ht
  obtain ⟨a, b, rest, hfull, -, -⟩ := mergeOnce_ok ht
  have horder := h.order
  rw [mergeOnce_frame ht]
  exact { h with
    arena := by
      change t.nodes.length ≤ 511
      omega
    order := by
      change t.pq.length ≤ 256
      change s.pq.length ≤ 256 at horder
      omega }

theorem RecordsOk.buildFinish (h : RecordsOk s) {t : State} (ht : buildFinish s = .ok t) :
    RecordsOk t := by
  obtain ⟨r, rest, hpq, rfl⟩ := buildFinish_ok ht
  have horder := h.order
  exact { h with
    order := by
      change rest.length ≤ 256
      rw [State.pqlen, hpq, List.length_cons] at horder
      omega
    flags := fun _ => rfl }

theorem recordsOk_clearCore (h : s.srcOk = false → s.istr = []) : RecordsOk s.clearCore :=
  { counts := fun b => by simp [State.freqAt]
    arena := Nat.zero_le _
    order := Nat.zero_le _
    acc := fun k _ => by simp
    code := fun b => by simpa [State.codeAt] using codeRecOk_none
    source := h
    flags := nofun }

theorem inv_clearCore (h : s.srcOk = false → s.istr = []) : Inv s.clearCore :=
  inv_of_calm nofun nofun (recordsOk_clearCore h) rfl

theorem inv_complete (h : RecordsOk s) (he : s.err = .none) : Inv s.complete :=
  inv_of_calm nofun nofun (h.setPhase _) he

theorem inv_flushing (h : RecordsOk s) (he : s.err = .none) (f : FlushTask) :
    Inv (s.setPhase (.flushing f)) :=
  inv_of_calm nofun nofun (h.setPhase _) he

theorem inv_standAt (h : RecordsOk s) (he : s.err = .none) {p : Task} (hp : StandsOk s p) :
    Inv (s.standAt p) := by
  refine inv_of_streaming rfl (h.setPhase _) he ?_
  cases p <;> exact hp

theorem inv_raise {e : Err} (h : RecordsOk s) (he : e ≠ .none) : Inv (s.raise e) := by
  obtain ⟨hcounts, harena, horder, hacc, hcode, hsource, hflags⟩ := h.raise e
  exact ⟨by simp [ErrMatches, he], hcounts, trivial, harena, horder, hacc, hcode, hsource, hflags,
    trivial⟩

end

/-! ### What keeps the invariant: the steps of a running command -/

section
variable {s t : State}

theorem State.freqAt_setIstr (s : State) (bs : List Byte) (b : Byte) :
    (s.setIstr bs).freqAt b = s.freqAt b := rfl

theorem inv_tickStart {i : Instr} (h : RecordsOk s) (he : s.err = .none)
    (hs : StandsOk s (.start i)) (ht : tickStart i s = .next t) : Inv t := by
  cases i with
  | clear => cases ht; exact inv_clearCore h.source
  | analyze => cases ht; exact inv_standAt h.zeroCounts he ⟨rfl, rfl⟩
  | build => cases ht; exact inv_standAt h.buildStart he ⟨rfl, rfl⟩
  | gencode => cases ht; exact inv_standAt h.gencodeStart he ⟨hs, rfl⟩
  | wrhdr => cases ht; exact inv_standAt h he trivial
  | encode => cases ht; exact inv_standAt h.clearAcc he trivial
  | rdhdr =>
    cases ht
    exact inv_standAt h.zeroCounts he ⟨⟨rfl, rfl⟩, countBytes_pos s.cb, by simp⟩
  | decode =>
    rw [tickStart] at ht
    split at ht
    · split at ht <;> cases ht
      · exact inv_flushing (h.setCur s.root) he _
      · exact inv_raise (h.setCur s.root) nofun
    · cases ht
      exact inv_standAt (h.setCur s.root) he trivial

theorem inv_tickAnalyze (hp : s.phase = .streaming .analyze) (h : RecordsOk s) (he : s.err = .none)
    (hs : StandsOk s .analyze) (ht : tickAnalyze s = .next t) : Inv t := by
  rcases s.srcRead_cases with ⟨_, hr⟩ | ⟨b, rest, hi, hr⟩ <;> rw [tickAnalyze, hr] at ht
  · cases ht
    exact inv_complete h he
  · rcases analyzeByte_cases b (s.setIstr rest) with ⟨_, hb⟩ | ⟨hc, hb⟩
    · simp only [hb] at ht
      cases ht
      exact inv_raise (h.setIstr hi) nofun
    · simp only [hb] at ht
      cases ht
      have hle := h.counts b
      have hmax := countMax_lt s.cb
      have hv : (s.freqAt b + 1).toNat ≤ countMax s.cb := by
        rw [State.freqAt_setIstr, State.setIstr_cb] at hc
        rw [BitVec.toNat_add]
        refine le_trans (Nat.mod_le _ _) ?_
        change (s.freqAt b).toNat + 1 ≤ countMax s.cb
        omega
      exact inv_of_streaming hp ((h.setIstr hi).setFreq b hv) he hs

theorem inv_tickLoad {k : Nat} (h : RecordsOk s) (he : s.err = .none)
    (hs : StandsOk s (.buildLoad k)) (ht : tickLoad k s = .next t) : Inv t := by
  rw [tickLoad] at ht
  split at ht
  · rcases hl : loadSymbol s (BitVec.ofNat 8 k) with f | u
    · rw [hl] at ht
      cases ht
    · rw [hl] at ht
      cases ht
      have hu := loadSymbol_frame hl
      refine inv_standAt (h.loadSymbol hl) ?_ ?_
      · rw [hu]
        exact he
      · rw [hu]
        exact hs
  · split at ht <;> cases ht
    · exact inv_raise h nofun
    · exact inv_standAt h he hs

theorem ofExcept_next {r : Except Fault State} (h : ofExcept r = .next t) : r = .ok t := by
  cases r <;> cases h
  rfl

theorem inv_tickMerge (hp : s.phase = .streaming .buildMerge) (h : RecordsOk s) (he : s.err = .none)
    (hs : StandsOk s .buildMerge) (ht : tickMerge s = .next t) : Inv t := by
  rw [tickMerge] at ht
  split at ht
  · have hm := ofExcept_next ht
    have hrec := h.mergeOnce hm
    rw [mergeOnce_frame hm] at hrec ⊢
    exact inv_of_streaming hp hrec he hs
  · have hf := ofExcept_next ht
    have hrec := h.buildFinish hf
    obtain ⟨r, rest, -, rfl⟩ := buildFinish_ok hf
    exact inv_of_calm nofun nofun hrec he

theorem inv_tickGencode {stack : List (NodeIdx × List Bool)} (h : RecordsOk s) (he : s.err = .none)
    (hs : StandsOk s (.gencode stack)) (ht : tickGencode stack s = .next t) : Inv t := by
  rcases stack with _ | ⟨⟨n, path⟩, rest⟩
  · cases ht
    exact inv_of_calm nofun nofun { h with flags := fun _ => hs.1 } he
  · rw [tickGencode] at ht
    split at ht
    · cases ht
    next hlen =>
      simp only [Config.maxLen, gt_iff_lt, not_lt] at hlen
      split at ht <;> cases ht
      · exact inv_standAt (h.visitLeaf n hlen) he hs
      · exact inv_standAt h he hs

theorem inv_tickWrhdr {k j : Nat} (h : RecordsOk s) (he : s.err = .none)
    (ht : tickWrhdr k j s = .next t) : Inv t := by
  rw [tickWrhdr] at ht
  split at ht <;> cases ht
  · exact inv_standAt (h.dstWrite _) he trivial
  · exact inv_complete h he

theorem State.putbit_err (s : State) (c : Bool) : (s.putbit c).err = s.err := by
  rcases s.putbit_cases c with ⟨_, he⟩ | ⟨_, he⟩ <;> rw [he]

theorem State.walkBit_err (s : State) (c : Bool) : (s.walkBit c).err = s.err := by
  rcases s.walkBit_cases c with ⟨_, he⟩ | ⟨_, he⟩ <;> rw [he]

theorem inv_tickEncode {cs : List Bool} (h : RecordsOk s) (he : s.err = .none)
    (ht : tickEncode cs s = .next t) : Inv t := by
  rcases cs with _ | ⟨c, cs⟩
  · rcases s.srcRead_cases with ⟨_, hr⟩ | ⟨b, rest, hi, hr⟩ <;> rw [tickEncode, hr] at ht
    · cases ht
      exact inv_flushing h he _
    · dsimp only at ht
      split at ht <;> cases ht
      · exact inv_standAt (h.setIstr hi) he trivial
      · exact inv_raise (h.setIstr hi) nofun
  · cases ht
    exact inv_standAt (h.putbit c) (by rw [State.putbit_err, he]) trivial

theorem inv_tickDecode {cs : List Bool} (h : RecordsOk s) (he : s.err = .none)
    (ht : tickDecode cs s = .next t) : Inv t := by
  rcases cs with _ | ⟨c, cs⟩
  · rcases s.srcRead_cases with ⟨_, hr⟩ | ⟨b, rest, hi, hr⟩ <;> rw [tickDecode, hr] at ht <;>
      cases ht
    · exact inv_flushing h he _
    · exact inv_standAt (h.setIstr hi) he trivial
  · cases ht
    exact inv_standAt (h.walkBit c) (by rw [State.walkBit_err, he]) trivial

theorem inv_encodeFlush (h : RecordsOk s) (he : s.err = .none) : Inv s.encodeFlush := by
  rw [State.encodeFlush]
  split
  · exact inv_complete (h.dstWrite _).clearAcc he
  · exact inv_complete h he

/-- One more byte of a count makes it eight bits wider (45_decoder.md R251). -/
theorem toNat_add_countPart {v : Count} {j : Nat} (b : Byte) (hv : v.toNat < 2 ^ (8 * j)) :
    (v + countPart b j).toNat < 2 ^ (8 * (j + 1)) := by
  have hpart : (countPart b j).toNat ≤ b.toNat * 2 ^ (8 * j) := by
    simp only [countPart, BitVec.toNat_shiftLeft, BitVec.toNat_setWidth, Nat.shiftLeft_eq]
    refine le_trans (Nat.mod_le _ _) (Nat.mul_le_mul_right _ (Nat.mod_le _ _))
  have hb : b.toNat ≤ 255 := Nat.le_of_lt_succ b.isLt
  have hmul : b.toNat * 2 ^ (8 * j) ≤ 255 * 2 ^ (8 * j) := Nat.mul_le_mul_right _ hb
  rw [BitVec.toNat_add, show 8 * (j + 1) = 8 * j + 8 by omega, Nat.pow_add]
  refine lt_of_le_of_lt (Nat.mod_le _ _) ?_
  omega

theorem inv_tickRdhdr {k j : Nat} {v : Count} (h : RecordsOk s) (he : s.err = .none)
    (hs : StandsOk s (.rdhdr k j v)) (ht : tickRdhdr k j v s = .next t) : Inv t := by
  obtain ⟨hflags, hj, hv⟩ := hs
  rw [tickRdhdr] at ht
  split at ht
  · rcases s.srcRead_cases with ⟨_, hr⟩ | ⟨b, rest, hi, hr⟩ <;> rw [hr] at ht
    · cases ht
      exact inv_raise h nofun
    · have hsum := toNat_add_countPart b hv
      dsimp only at ht
      split at ht <;> cases ht
      next hmore => exact inv_standAt (h.setIstr hi) he ⟨hflags, hmore, hsum⟩
      next hlast =>
        have hw : (v + countPart b j).toNat ≤ countMax s.cb := by
          rw [countMax, show countBytes s.cb = j + 1 by omega]
          omega
        exact inv_standAt ((h.setIstr hi).setFreq _ hw) he
          ⟨hflags, countBytes_pos s.cb, by simp⟩
  · cases ht
    exact inv_complete h he

/-- Every step of the core keeps the invariant. -/
theorem inv_tick (h : Inv s) (ht : tick s = .next t) : Inv t := by
  have hrec := recordsOk_of_inv h
  rw [tick] at ht
  cases hp : s.phase with
  | idle => rw [hp] at ht; cases ht; exact h
  | done => rw [hp] at ht; cases ht; exact h
  | error => rw [hp] at ht; cases ht; exact h
  | flushing f =>
    have he := err_none_of_inv h (by simp [hp])
    cases f with
    | encode => rw [hp] at ht; cases ht; exact inv_encodeFlush hrec he
    | decode => rw [hp] at ht; cases ht; exact inv_complete hrec he
  | streaming p =>
    have he := err_none_of_inv h (by simp [hp])
    have hs := standsOk_of_inv h hp
    rw [hp] at ht
    cases p with
    | start i => exact inv_tickStart hrec he hs ht
    | analyze => exact inv_tickAnalyze hp hrec he hs ht
    | buildLoad k => exact inv_tickLoad hrec he hs ht
    | buildMerge => exact inv_tickMerge hp hrec he hs ht
    | gencode stack => exact inv_tickGencode hrec he hs ht
    | wrhdr k j => exact inv_tickWrhdr hrec he ht
    | encode cs => exact inv_tickEncode hrec he ht
    | rdhdr k j v => exact inv_tickRdhdr hrec he hs ht
    | decode cs => exact inv_tickDecode hrec he ht

/-! ### What keeps the invariant: the rest of a step -/

theorem inv_begin {i : Instr} (h : Inv s) (ha : s.acceptance (some i) = .runs i) :
    Inv (s.begin i) := by
  obtain ⟨hflag, hclear⟩ := State.acceptance_runs ha
  refine inv_of_streaming rfl ((recordsOk_of_inv h).begin i) ?_ hflag
  rw [State.begin_err]
  split
  · rfl
  · exact err_none_of_inv h fun hp => ‹i ≠ .clear› (hclear hp)

theorem inv_coreMove (h : Inv s) (hm : CoreMove s t) : Inv t := by
  cases hm with
  | core ht => exact inv_tick h ht
  | accept ha => exact inv_begin h ha
  | fault ha => exact inv_raise (recordsOk_of_inv h) (State.acceptance_raised ha)
  | reset => exact inv_clearCore h.source
  | read a =>
    rw [State.readRegister]
    split
    · exact { h with }
    · exact { h with }
  | script rest => exact { h with }

theorem inv_streamAction {a : HostItem} (h : Inv s) (ha : StreamAction a s t) : Inv t := by
  cases ha with
  | src bytes => exact { h with source := nofun }
  | nosrc => exact { h with source := fun _ => rfl }
  | dst => exact { h with }
  | nodst => exact { h with }

end

/-- Settles O55: `Inv` is kept by each of the things a step is made of. -/
theorem stepKeepsInvariant : Obligations.StepKeepsInvariant :=
  fun _ _ => step_keeps (fun _ _ => inv_coreMove) (fun _ _ _ => inv_streamAction)

end Sys2Proof.Machine
end

section
/-! The meaning of `TV` and `CV` (10_state.md R34) is kept by every step. -/

namespace Sys2Proof.Machine

open Sys2Proof.Safety

/-! ### What the walk of `GENCODE` depends on -/

/-- `t` with the arena and the code table of `u`: with everything the walk reads or writes. -/
def State.withCodeOf (t u : State) : State :=
  { t with nodes := u.nodes, code := u.code }

theorem walk_withCodeOf (t s : State) (k : Nat) (n : NodeIdx) (path : List Bool) :
    walk k n path (t.withCodeOf s) = (walk k n path s).map t.withCodeOf := by
  induction k generalizing n path s with
  | zero => rfl
  | succ k ih =>
    have hl : (t.withCodeOf s).isLeaf n = s.isLeaf n := rfl
    have hn : (t.withCodeOf s).nodeAt n = s.nodeAt n := rfl
    simp only [walk, hl, hn, ih]
    split
    · rfl
    · rcases walk k (s.nodeAt n).left (path ++ [false]) s with f | s1
      · rfl
      · exact ih s1 (s1.nodeAt n).right (path ++ [true])

theorem walkStack_withCodeOf (t s : State) (stack : List (NodeIdx × List Bool)) :
    walkStack stack (t.withCodeOf s) = (walkStack stack s).map t.withCodeOf := by
  induction stack generalizing s with
  | nil => rfl
  | cons e rest ih =>
    obtain ⟨n, path⟩ := e
    simp only [walkStack, walk_withCodeOf]
    rcases walk (Config.maxLen + 1 - path.length) n path s with f | s1
    · rfl
    · exact ih s1

/-- What the walks still to do make of the code table depends on the arena and the table alone. -/
theorem walkStack_congr {s t : State} (h : t = t.withCodeOf s)
    (stack : List (NodeIdx × List Bool)) :
    (walkStack stack t).map State.code = (walkStack stack s).map State.code := by
  rw [h, walkStack_withCodeOf]
  rcases walkStack stack s with f | s1 <;> rfl

/-- `GENCODE` is the walk of the root alone. -/
theorem gencodeBody_code (s : State) :
    (gencodeBody s).map State.code = (walkStack [(s.root, [])] s.gencodeStart).map State.code := by
  rw [gencodeBody, walkStack, List.length_nil, Nat.sub_zero]
  rcases walk (Config.maxLen + 1) s.root [] s.gencodeStart with f | s1 <;> rfl

/-- The table `GENCODE` derives is a function of the tree (43_code_table.md R207). -/
theorem gencodeBody_congr {s t : State} (hn : t.nodes = s.nodes) (hr : t.root = s.root) :
    (gencodeBody t).map State.code = (gencodeBody s).map State.code := by
  have hs : t.gencodeStart = t.gencodeStart.withCodeOf s.gencodeStart := by
    simp [State.withCodeOf, State.gencodeStart, State.setCv, hn]
  rw [gencodeBody_code, gencodeBody_code, hr, walkStack_congr hs]

/-! ### What `BUILD` depends on -/

theorem buildTail_congr {s t : State} (h : t = t.withTreeOf s) :
    (buildTail t).map treePart = (buildTail s).map treePart := by
  rw [h, buildTail_withTreeOf]

theorem buildBody_eq_bind (s : State) :
    buildBody s = (loadSymbols allSymbols s.buildStart).bind buildTail := by
  rw [buildBody]
  rcases loadSymbols allSymbols s.buildStart with f | s1 <;> rfl

theorem loadSymbols_bind_congr {s t : State} (h : t = t.withTreeOf s) (bs : List Byte) :
    ((loadSymbols bs t).bind buildTail).map treePart =
      ((loadSymbols bs s).bind buildTail).map treePart := by
  rw [h, loadSymbols_withTreeOf]
  rcases loadSymbols bs s with f | s1
  · rfl
  · exact buildTail_withTreeOf t s1

/-! ### The flags -/

/-- The clauses of `FlagsMean` that do not speak of `PHASE`. -/
def FlagsOk (s : State) : Prop :=
  (s.tv = true → TreeMatches s) ∧ (s.cv = true → s.tv = true ∧ CodeMatches s)

theorem except_map_eq_ok {α β ε : Type} {f : α → β} {r : Except ε α} {b : β} :
    r.map f = .ok b ↔ ∃ a, r = .ok a ∧ f a = b := by
  rcases r with e | a <;> simp [Except.map]

theorem treeMatches_iff (s : State) :
    TreeMatches s ↔ ∃ pq, (buildBody s).map treePart = .ok (s.nodes, pq, s.root, true) := by
  constructor
  · rintro ⟨t, ht, htv, hn, hr⟩
    exact ⟨t.pq, except_map_eq_ok.mpr ⟨t, ht, by rw [treePart, htv, hn, hr]⟩⟩
  · rintro ⟨pq, h⟩
    obtain ⟨t, ht, hpart⟩ := except_map_eq_ok.mp h
    simp only [treePart, Prod.mk.injEq] at hpart
    obtain ⟨hn, -, hr, htv⟩ := hpart
    exact ⟨t, ht, htv, hn.symm, hr.symm⟩

theorem codeMatches_iff (s : State) :
    CodeMatches s ↔ (gencodeBody s).map State.code = .ok s.code := by
  rw [except_map_eq_ok]
  exact exists_congr fun t => and_congr_right fun _ => eq_comm

section
variable {s t : State}

theorem treeMatches_congr (hf : t.freq = s.freq) (hn : t.nodes = s.nodes) (hr : t.root = s.root)
    (h : TreeMatches s) : TreeMatches t := by
  rw [treeMatches_iff] at h ⊢
  rw [buildBody_congr hf, hn, hr]
  exact h

theorem codeMatches_congr (hn : t.nodes = s.nodes) (hr : t.root = s.root) (hc : t.code = s.code)
    (h : CodeMatches s) : CodeMatches t := by
  rw [codeMatches_iff] at h ⊢
  rw [gencodeBody_congr hn hr, hc]
  exact h

theorem fields_of_eq_withTreeOf (h : t = t.withTreeOf s) :
    t.freq = s.freq ∧ t.nodes = s.nodes ∧ t.pq = s.pq ∧ t.root = s.root ∧ t.tv = s.tv ∧
      t.cv = s.cv := by
  rw [h]
  exact ⟨rfl, rfl, rfl, rfl, rfl, rfl⟩

theorem flagsOk_congr (htree : t = t.withTreeOf s) (hcode : t.code = s.code) (h : FlagsOk s) :
    FlagsOk t := by
  obtain ⟨hf, hn, -, hr, htv, hcv⟩ := fields_of_eq_withTreeOf htree
  rw [FlagsOk, htv, hcv]
  exact h.imp (fun h ht => treeMatches_congr hf hn hr (h ht))
    (fun h hc => (h hc).imp_right (codeMatches_congr hn hr hcode))

theorem flagsOk_of_flagsMean (h : FlagsMean s) : FlagsOk s :=
  ⟨h.1, h.2.1⟩

/-- What a position still has to do depends on the tree and the code table alone. -/
theorem taskMatches_congr (hphase : t.phase = s.phase) (htree : t = t.withTreeOf s)
    (hcode : t = t.withCodeOf s) (h : TaskMatches s) : TaskMatches t := by
  obtain ⟨hf, hn, hpq, hr, htv, hcv⟩ := fields_of_eq_withTreeOf htree
  have hflag : ∀ f, t.flagHolds f = s.flagHolds f := by
    intro f
    cases f <;> simp [State.flagHolds, htv, hcv]
  unfold TaskMatches at h ⊢
  simp only [hphase, htv, hcv, hpq, hflag, buildBody_congr hf, gencodeBody_congr hn hr,
    loadSymbols_bind_congr htree, buildTail_congr htree, walkStack_congr hcode]
  exact h

theorem flagsMean_congr (h : FlagsMean s) (hphase : t.phase = s.phase)
    (htree : t = t.withTreeOf s) (hcode : t = t.withCodeOf s) : FlagsMean t := by
  have hc : t.code = s.code := by
    rw [hcode]
    rfl
  obtain ⟨htv, hcv⟩ := flagsOk_congr htree hc (flagsOk_of_flagsMean h)
  exact ⟨htv, hcv, taskMatches_congr hphase htree hcode h.2.2⟩

theorem flagsMean_of_same (h : FlagsOk s) (htree : t = t.withTreeOf s) (hcode : t.code = s.code)
    (htask : TaskMatches t) : FlagsMean t := by
  obtain ⟨htv, hcv⟩ := flagsOk_congr htree hcode h
  exact ⟨htv, hcv, htask⟩

theorem flagsMean_of_cleared (htv : t.tv = false) (hcv : t.cv = false) (h : TaskMatches t) :
    FlagsMean t :=
  ⟨by simp [htv], by simp [hcv], h⟩

theorem flagsMean_raise (h : FlagsOk s) (e : Err) : FlagsMean (s.raise e) :=
  flagsMean_of_same h rfl rfl trivial

theorem flagsMean_complete (h : FlagsOk s) : FlagsMean s.complete :=
  flagsMean_of_same h rfl rfl trivial

/-! ### The steps of a running command -/

theorem flagsMean_tickStart {i : Instr} (h : FlagsOk s) (hs : s.flagHolds (needs i).flag = true)
    (ht : tickStart i s = .next t) : FlagsMean t := by
  cases i with
  | clear => cases ht; exact flagsMean_of_cleared rfl rfl trivial
  | analyze => cases ht; exact flagsMean_of_cleared rfl rfl ⟨rfl, rfl⟩
  | build =>
    cases ht
    refine flagsMean_of_cleared rfl rfl ⟨rfl, rfl, ?_⟩
    rw [buildBody_eq_bind, List.drop_zero]
    exact loadSymbols_bind_congr rfl allSymbols
  | gencode =>
    cases ht
    refine ⟨fun htv => treeMatches_congr (s := s) rfl rfl rfl (h.1 htv), nofun, hs, rfl, ?_⟩
    rw [gencodeBody_code]
    exact walkStack_congr rfl _
  | wrhdr => cases ht; exact flagsMean_of_same h rfl rfl trivial
  | encode => cases ht; exact flagsMean_of_same h rfl rfl trivial
  | rdhdr => cases ht; exact flagsMean_of_cleared rfl rfl ⟨rfl, rfl⟩
  | decode =>
    rw [tickStart] at ht
    split at ht
    · split at ht <;> cases ht
      · exact flagsMean_of_same h rfl rfl trivial
      · exact flagsMean_of_same h rfl rfl trivial
    · cases ht
      exact flagsMean_of_same h rfl rfl trivial

theorem flagsMean_tickAnalyze (hp : s.phase = .streaming .analyze) (htv : s.tv = false)
    (hcv : s.cv = false) (ht : tickAnalyze s = .next t) : FlagsMean t := by
  rcases s.srcRead_cases with ⟨_, hr⟩ | ⟨b, rest, hi, hr⟩ <;> rw [tickAnalyze, hr] at ht
  · cases ht
    exact flagsMean_of_cleared htv hcv trivial
  · rcases analyzeByte_cases b (s.setIstr rest) with ⟨_, hb⟩ | ⟨_, hb⟩ <;> simp only [hb] at ht <;>
      cases ht
    · exact flagsMean_of_cleared htv hcv trivial
    · refine flagsMean_of_cleared htv hcv ?_
      simp [TaskMatches, hp, htv, hcv]

theorem flagsMean_tickRdhdr {k j : Nat} {v : Count} (htv : s.tv = false) (hcv : s.cv = false)
    (ht : tickRdhdr k j v s = .next t) : FlagsMean t := by
  rw [tickRdhdr] at ht
  split at ht
  · rcases s.srcRead_cases with ⟨_, hr⟩ | ⟨b, rest, hi, hr⟩ <;> rw [hr] at ht
    · cases ht
      exact flagsMean_of_cleared htv hcv trivial
    · dsimp only at ht
      split at ht <;> cases ht
      · exact flagsMean_of_cleared htv hcv ⟨htv, hcv⟩
      · exact flagsMean_of_cleared htv hcv ⟨htv, hcv⟩
  · cases ht
    exact flagsMean_of_cleared htv hcv trivial

/-- The load loop goes on its way to what `BUILD` makes of the counts. -/
theorem flagsMean_tickLoad {k : Nat} (htv : s.tv = false) (hcv : s.cv = false)
    (hs : ((loadSymbols (allSymbols.drop k) s).bind buildTail).map treePart =
      (buildBody s).map treePart) (ht : tickLoad k s = .next t) : FlagsMean t := by
  rw [tickLoad] at ht
  split at ht
  next hk =>
    rcases hl : loadSymbol s (BitVec.ofNat 8 k) with f | u
    · rw [hl] at ht
      cases ht
    · rw [hl] at ht
      cases ht
      have hu := loadSymbol_frame hl
      have hf : u.freq = s.freq := by rw [hu]
      have htv' : u.tv = false := by rw [hu, htv]
      have hcv' : u.cv = false := by rw [hu, hcv]
      refine flagsMean_of_cleared htv' hcv' ⟨htv', hcv', ?_⟩
      have hbody : (buildBody (u.standAt (.buildLoad (k + 1)))).map treePart =
          (buildBody s).map treePart := buildBody_congr hf
      rw [loadSymbols_bind_congr (s := u) rfl, hbody, ← hs, allSymbols_drop hk, loadSymbols, hl]
  next hk =>
    rw [allSymbols_drop_ge (by omega)] at hs
    split at ht <;> cases ht
    next => exact flagsMean_of_cleared htv hcv trivial
    next hpq =>
      refine flagsMean_of_cleared htv hcv ⟨htv, hcv, hpq, ?_⟩
      have hbody : (buildBody (s.standAt .buildMerge)).map treePart = (buildBody s).map treePart :=
        buildBody_congr rfl
      rw [buildTail_congr (s := s) rfl, hbody]
      exact hs

/-- A merge leaves what `BUILD` still makes of its tree as it was. -/
theorem buildTail_of_mergeOnce (hl : s.pq.length > 1) (h : mergeOnce s = .ok t) :
    t.pq ≠ [] ∧ buildTail s = buildTail t := by
  have hlen := (mergeOnce_lengths h).1
  have hs : s.pq ≠ [] := fun he => by simp [he] at hl
  have ht : t.pq ≠ [] := fun he => by simp [he] at hlen; omega
  refine ⟨ht, ?_⟩
  rw [buildTail, buildTail, if_neg hs, if_neg ht, ← hlen, mergeLoop, if_pos hl, h]

theorem buildTail_of_last (hpq : s.pq ≠ []) (hl : ¬ s.pq.length > 1) :
    buildTail s = buildFinish s := by
  obtain ⟨r, rest, h⟩ := List.exists_cons_of_ne_nil hpq
  rw [buildTail, if_neg hpq, h, List.length_cons, mergeLoop, if_neg hl]

theorem flagsMean_tickMerge (hp : s.phase = .streaming .buildMerge) (htv : s.tv = false)
    (hcv : s.cv = false) (hpq : s.pq ≠ [])
    (hs : (buildTail s).map treePart = (buildBody s).map treePart)
    (ht : tickMerge s = .next t) : FlagsMean t := by
  rw [tickMerge] at ht
  split at ht
  next hl =>
    have hm := ofExcept_next ht
    obtain ⟨hne, htail⟩ := buildTail_of_mergeOnce hl hm
    have hu := mergeOnce_frame hm
    have hf : t.freq = s.freq := by rw [hu]
    have hph : t.phase = .streaming .buildMerge := by rw [hu, hp]
    have htv' : t.tv = false := by rw [hu, htv]
    have hcv' : t.cv = false := by rw [hu, hcv]
    refine flagsMean_of_cleared htv' hcv' ?_
    unfold TaskMatches
    rw [hph]
    exact ⟨htv', hcv', hne, by rw [← htail, hs, buildBody_congr hf]⟩
  next hl =>
    have hfin := ofExcept_next ht
    rw [buildTail_of_last hpq hl, hfin] at hs
    obtain ⟨r, rest, -, rfl⟩ := buildFinish_ok hfin
    refine ⟨fun _ => ?_, by simp [hcv], trivial⟩
    have hbody : (buildBody (((s.setPq rest).setRoot r).setTv).complete).map treePart =
        (buildBody s).map treePart := buildBody_congr rfl
    rw [treeMatches_iff]
    exact ⟨rest, hbody.trans hs.symm⟩

/-- One node of the walk is the walk of its children. -/
theorem walkStack_internal {n : NodeIdx} {path : List Bool} {rest : List (NodeIdx × List Bool)}
    (hlen : path.length ≤ 255) (hl : s.isLeaf n = false) :
    walkStack ((n, path) :: rest) s =
      walkStack
        (((s.nodeAt n).left, path ++ [false]) :: ((s.nodeAt n).right, path ++ [true]) :: rest)
        s := by
  obtain ⟨k, hk⟩ := Nat.exists_eq_add_of_le hlen
  have hfuel : Config.maxLen + 1 - path.length = k + 1 := by simp only [Config.maxLen]; omega
  have hfuel' : ∀ c, Config.maxLen + 1 - (path ++ [c]).length = k := by
    intro c
    rw [List.length_append, List.length_singleton]
    simp only [Config.maxLen]
    omega
  simp only [walkStack, hfuel, hfuel']
  rcases h1 : walk k (s.nodeAt n).left (path ++ [false]) s with f | s1
  · simp [walk, hl, h1]
  · simp only [walk_internal path hl h1]

theorem walkStack_leaf {n : NodeIdx} {path : List Bool} {rest : List (NodeIdx × List Bool)}
    (hlen : path.length ≤ 255) (hl : s.isLeaf n = true) :
    walkStack ((n, path) :: rest) s = walkStack rest (s.visitLeaf n path) := by
  obtain ⟨k, hk⟩ := Nat.exists_eq_add_of_le hlen
  have hfuel : Config.maxLen + 1 - path.length = k + 1 := by simp only [Config.maxLen]; omega
  rw [walkStack, hfuel, walk_leaf path hl]

theorem flagsMean_tickGencode {stack : List (NodeIdx × List Bool)} (h : FlagsOk s)
    (htv : s.tv = true) (hcv : s.cv = false)
    (hs : (walkStack stack s).map State.code = (gencodeBody s).map State.code)
    (ht : tickGencode stack s = .next t) : FlagsMean t := by
  rcases stack with _ | ⟨⟨n, path⟩, rest⟩
  · cases ht
    refine ⟨fun htv => treeMatches_congr (s := s) rfl rfl rfl (h.1 htv), fun _ => ⟨htv, ?_⟩,
      trivial⟩
    have hbody : (gencodeBody s.gencodeFinish).map State.code = (gencodeBody s).map State.code :=
      gencodeBody_congr rfl rfl
    rw [codeMatches_iff]
    exact hbody.trans hs.symm
  · rw [tickGencode] at ht
    split at ht
    · cases ht
    next hlen =>
      simp only [Config.maxLen, gt_iff_lt, not_lt] at hlen
      split at ht <;> cases ht
      next hl =>
        refine ⟨fun htv => treeMatches_congr (s := s) rfl rfl rfl (h.1 htv), by simp [hcv],
          htv, hcv, ?_⟩
        rw [walkStack_congr (s := s.visitLeaf n path) rfl, ← walkStack_leaf hlen hl, hs]
        exact gencodeBody_congr rfl rfl
      next hl =>
        refine ⟨fun htv => treeMatches_congr (s := s) rfl rfl rfl (h.1 htv), by simp [hcv],
          htv, hcv, ?_⟩
        rw [walkStack_congr (s := s) rfl, ← walkStack_internal hlen (by simpa using hl), hs]
        exact gencodeBody_congr rfl rfl

theorem flagsMean_tickWrhdr {k j : Nat} (h : FlagsOk s) (ht : tickWrhdr k j s = .next t) :
    FlagsMean t := by
  rw [tickWrhdr] at ht
  split at ht <;> cases ht
  · exact flagsMean_of_same h rfl rfl trivial
  · exact flagsMean_complete h

theorem State.putbit_eq_withTreeOf (s : State) (c : Bool) :
    s.putbit c = (s.putbit c).withTreeOf s ∧ (s.putbit c).code = s.code := by
  rcases s.putbit_cases c with ⟨_, he⟩ | ⟨_, he⟩ <;> rw [he] <;> exact ⟨rfl, rfl⟩

theorem State.walkBit_eq_withTreeOf (s : State) (c : Bool) :
    s.walkBit c = (s.walkBit c).withTreeOf s ∧ (s.walkBit c).code = s.code := by
  rcases s.walkBit_cases c with ⟨_, he⟩ | ⟨_, he⟩ <;> rw [he] <;> exact ⟨rfl, rfl⟩

theorem flagsMean_tickEncode {cs : List Bool} (h : FlagsOk s) (ht : tickEncode cs s = .next t) :
    FlagsMean t := by
  rcases cs with _ | ⟨c, cs⟩
  · rcases s.srcRead_cases with ⟨_, hr⟩ | ⟨b, rest, hi, hr⟩ <;> rw [tickEncode, hr] at ht
    · cases ht
      exact flagsMean_of_same h rfl rfl trivial
    · dsimp only at ht
      split at ht <;> cases ht
      · exact flagsMean_of_same h rfl rfl trivial
      · exact flagsMean_of_same h rfl rfl trivial
  · cases ht
    obtain ⟨htree, hcode⟩ := s.putbit_eq_withTreeOf c
    have h' := flagsOk_congr htree hcode h
    exact flagsMean_of_same h' rfl rfl trivial

theorem flagsMean_tickDecode {cs : List Bool} (h : FlagsOk s) (ht : tickDecode cs s = .next t) :
    FlagsMean t := by
  rcases cs with _ | ⟨c, cs⟩
  · rcases s.srcRead_cases with ⟨_, hr⟩ | ⟨b, rest, hi, hr⟩ <;> rw [tickDecode, hr] at ht <;>
      cases ht
    · exact flagsMean_of_same h rfl rfl trivial
    · exact flagsMean_of_same h rfl rfl trivial
  · cases ht
    obtain ⟨htree, hcode⟩ := s.walkBit_eq_withTreeOf c
    have h' := flagsOk_congr htree hcode h
    exact flagsMean_of_same h' rfl rfl trivial

theorem flagsMean_encodeFlush (h : FlagsOk s) : FlagsMean s.encodeFlush := by
  rw [State.encodeFlush]
  split
  · exact flagsMean_of_same h rfl rfl trivial
  · exact flagsMean_complete h

/-- Every step of the core keeps the meaning of the flags. -/
theorem flagsMean_tick (h : FlagsMean s) (ht : tick s = .next t) : FlagsMean t := by
  have hf := flagsOk_of_flagsMean h
  have hs := h.2.2
  unfold TaskMatches at hs
  rw [tick] at ht
  cases hp : s.phase with
  | idle => rw [hp] at ht; cases ht; exact h
  | done => rw [hp] at ht; cases ht; exact h
  | error => rw [hp] at ht; cases ht; exact h
  | flushing f =>
    cases f with
    | encode => rw [hp] at ht; cases ht; exact flagsMean_encodeFlush hf
    | decode => rw [hp] at ht; cases ht; exact flagsMean_complete hf
  | streaming p =>
    rw [hp] at ht hs
    cases p with
    | start i => exact flagsMean_tickStart hf hs ht
    | analyze => exact flagsMean_tickAnalyze hp hs.1 hs.2 ht
    | buildLoad k =>
      obtain ⟨htv, hcv, hload⟩ := hs
      exact flagsMean_tickLoad htv hcv hload ht
    | buildMerge =>
      obtain ⟨htv, hcv, hpq, htail⟩ := hs
      exact flagsMean_tickMerge hp htv hcv hpq htail ht
    | gencode stack =>
      obtain ⟨htv, hcv, hwalk⟩ := hs
      exact flagsMean_tickGencode hf htv hcv hwalk ht
    | wrhdr k j => exact flagsMean_tickWrhdr hf ht
    | encode cs => exact flagsMean_tickEncode hf ht
    | rdhdr k j v => exact flagsMean_tickRdhdr hs.1 hs.2 ht
    | decode cs => exact flagsMean_tickDecode hf ht

/-! ### The rest of a step -/

theorem flagsMean_coreMove (h : FlagsMean s) (hm : CoreMove s t) : FlagsMean t := by
  have hf := flagsOk_of_flagsMean h
  cases hm with
  | core ht => exact flagsMean_tick h ht
  | accept ha => exact flagsMean_of_same hf rfl rfl (State.acceptance_runs ha).1
  | fault ha => exact flagsMean_raise hf _
  | reset => exact flagsMean_of_cleared rfl rfl trivial
  | read a =>
    rw [State.readRegister]
    split
    · exact flagsMean_congr h rfl rfl rfl
    · exact flagsMean_congr h rfl rfl rfl
  | script rest => exact flagsMean_congr h rfl rfl rfl

theorem flagsMean_streamAction {a : HostItem} (h : FlagsMean s) (ha : StreamAction a s t) :
    FlagsMean t := by
  cases ha with
  | src bytes => exact flagsMean_congr h rfl rfl rfl
  | nosrc => exact flagsMean_congr h rfl rfl rfl
  | dst => exact flagsMean_congr h rfl rfl rfl
  | nodst => exact flagsMean_congr h rfl rfl rfl

end

/-- Settles O56: the meaning of the flags is kept by each of the things a step is made of. -/
theorem stepKeepsMeaningOfFlags : Obligations.StepKeepsMeaningOfFlags :=
  fun _ _ => step_keeps (fun _ _ => flagsMean_coreMove) (fun _ _ _ => flagsMean_streamAction)

end Sys2Proof.Machine
end

section
/-! Reset, the arena's allocation, the host's stream actions and the signals the host drives. -/

namespace Sys2Proof.Machine

open Sys2Proof.Safety

/-! ### Reset -/

/-- Settles O57: the state after reset is one that reset leaves as it is. -/
theorem resetHasInvariants : Obligations.ResetHasInvariants :=
  ⟨inv_clearCore (s := State.reset) fun _ => rfl, flagsMean_of_cleared rfl rfl trivial⟩

theorem coreAtReset_clearCore (s : State) : CoreAtReset s.clearCore := by
  refine ⟨rfl, rfl, rfl, rfl, ?_, rfl, ?_, rfl, ?_, rfl, ?_, rfl, rfl, rfl⟩
  · exact fun b => Table.atByte_const 0 b
  · exact fun n => by simp [State.nodeAt]
  · exact fun i => by simp [State.pqWord]
  · exact fun b => Table.atByte_const CodeRec.none b

theorem exec_clear {s : State} (h : s.busy = false) : exec .clear s = .next s.clearCore :=
  runCommand_of_runs (fun t => .next t.clearCore) (State.acceptance_clear h)

/-- Settles O4: power-up, reset and `CLEAR` all leave the core as `clearCore` does. -/
theorem resetAndClearLeaveCoreAtReset : Obligations.ResetAndClearLeaveCoreAtReset := by
  refine ⟨⟨coreAtReset_clearCore State.reset, rfl, rfl, rfl, rfl, rfl⟩, ?_, ?_⟩
  · intro s rest hs
    have hstep := step_action hs nofun
    exact ⟨_, hstep, coreAtReset_clearCore _, ⟨rfl, rfl, rfl, rfl, rfl⟩, rfl⟩
  · intro s hb
    exact ⟨_, exec_clear hb, coreAtReset_clearCore s, ⟨rfl, rfl, rfl, rfl, rfl⟩, rfl⟩

/-! ### The sum of the counts and the arena -/

/-- Settles O18: 256 counts of at most `CMAX` each. -/
theorem weightSumFits : Obligations.WeightSumFits := by
  refine ⟨fun s h => ⟨?_, ?_, rfl⟩, rfl⟩
  · have hle : ∀ x ∈ allSymbols.map (fun b => (s.freq.atByte b).toNat), x ≤ countMax s.cb := by
      intro x hx
      obtain ⟨b, -, rfl⟩ := List.mem_map.mp hx
      exact h b
    have hsum := List.sum_le_card_nsmul _ _ hle
    rwa [List.length_map, length_allSymbols, smul_eq_mul] at hsum
  · have hpos : 0 < 2 ^ (8 * countBytes s.cb) := Nat.pow_pos (by omega)
    rw [Nat.pow_add]
    omega

/-- One allocation: the record is at the index returned, and every other record is as it was. -/
theorem State.alloc_appends {s : State} (h : s.nnodes < 511) (r : Node) :
    ∃ (n : NodeIdx) (t : State), s.alloc r = .ok (n, t) ∧ n.val = s.nnodes ∧ t.nodeAt n = r ∧
      t.nnodes = s.nnodes + 1 ∧ (∀ m, m ≠ n → t.nodeAt m = s.nodeAt m) ∧
      t = { s with nodes := t.nodes } := by
  rcases s.alloc_cases r with ⟨hn, he⟩ | ⟨hn, _⟩
  · refine ⟨_, _, he, rfl, by simp [State.nodeAt], by simp [State.nnodes], ?_, rfl⟩
    intro m hm
    have hne : m.val ≠ s.nodes.length := fun hv => hm (Fin.ext hv)
    rcases Nat.lt_or_gt_of_ne hne with hlt | hgt
    · exact State.nodeAt_append_lt [r] hlt
    · have h1 : s.nodes[m.val]? = none := List.getElem?_eq_none (by omega)
      have h2 : (s.nodes ++ [r])[m.val]? = none := List.getElem?_eq_none (by simp; omega)
      simp [State.nodeAt, h1, h2]
  · exact absurd h (Nat.not_lt.mpr hn)

/-- Settles O19: both primitives are `alloc` of their record. -/
theorem allocationAppendsOneRecord : Obligations.AllocationAppendsOneRecord :=
  fun _ h => ⟨fun _ _ => State.alloc_appends h _, fun _ _ _ => State.alloc_appends h _⟩

/-! ### The host's side -/

/-- What the core never writes: the constant `CB`, the signals the host drives, its script and the
read port. -/
def hostPart (s : State) : Config.CountBytes × Bool × Bool × List HostItem × BitVec 64 × Nat :=
  (s.cb, s.srcOk, s.dstOk, s.script, s.readData, s.draws)

section
variable {s t : State}

theorem hostPart_putbit (s : State) (c : Bool) : hostPart (s.putbit c) = hostPart s := by
  rcases s.putbit_cases c with ⟨_, he⟩ | ⟨_, he⟩ <;> rw [he] <;> rfl

theorem hostPart_walkBit (s : State) (c : Bool) : hostPart (s.walkBit c) = hostPart s := by
  rcases s.walkBit_cases c with ⟨_, he⟩ | ⟨_, he⟩ <;> rw [he] <;> rfl

theorem hostPart_tickStart {i : Instr} (h : tickStart i s = .next t) : hostPart t = hostPart s := by
  cases i with
  | decode =>
    rw [tickStart] at h
    split at h
    · split at h <;> cases h <;> rfl
    · cases h
      rfl
  | _ =>
    cases h
    rfl

theorem hostPart_tickAnalyze (h : tickAnalyze s = .next t) : hostPart t = hostPart s := by
  rcases s.srcRead_cases with ⟨_, hr⟩ | ⟨b, rest, _, hr⟩ <;> rw [tickAnalyze, hr] at h
  · cases h
    rfl
  · rcases analyzeByte_cases b (s.setIstr rest) with ⟨_, hb⟩ | ⟨_, hb⟩ <;> simp only [hb] at h <;>
      cases h <;> rfl

theorem hostPart_tickLoad {k : Nat} (h : tickLoad k s = .next t) : hostPart t = hostPart s := by
  rw [tickLoad] at h
  split at h
  · rcases hl : loadSymbol s (BitVec.ofNat 8 k) with f | u <;> rw [hl] at h <;> cases h
    rw [loadSymbol_frame hl]
    rfl
  · split at h <;> cases h <;> rfl

theorem hostPart_tickMerge (h : tickMerge s = .next t) : hostPart t = hostPart s := by
  rw [tickMerge] at h
  split at h
  · rw [mergeOnce_frame (ofExcept_next h)]
    rfl
  · obtain ⟨r, rest, -, rfl⟩ := buildFinish_ok (ofExcept_next h)
    rfl

theorem hostPart_tickGencode {stack : List (NodeIdx × List Bool)}
    (h : tickGencode stack s = .next t) : hostPart t = hostPart s := by
  rcases stack with _ | ⟨⟨n, path⟩, rest⟩
  · cases h
    rfl
  · rw [tickGencode] at h
    split at h
    · cases h
    · split at h <;> cases h <;> rfl

theorem hostPart_tickEncode {cs : List Bool} (h : tickEncode cs s = .next t) :
    hostPart t = hostPart s := by
  rcases cs with _ | ⟨c, cs⟩
  · rcases s.srcRead_cases with ⟨_, hr⟩ | ⟨b, rest, _, hr⟩ <;> rw [tickEncode, hr] at h
    · cases h
      rfl
    · dsimp only at h
      split at h <;> cases h <;> rfl
  · cases h
    exact hostPart_putbit s c

theorem hostPart_tickDecode {cs : List Bool} (h : tickDecode cs s = .next t) :
    hostPart t = hostPart s := by
  rcases cs with _ | ⟨c, cs⟩
  · rcases s.srcRead_cases with ⟨_, hr⟩ | ⟨b, rest, _, hr⟩ <;> rw [tickDecode, hr] at h <;>
      cases h <;> rfl
  · cases h
    exact hostPart_walkBit s c

theorem hostPart_tickRdhdr {k j : Nat} {v : Count} (h : tickRdhdr k j v s = .next t) :
    hostPart t = hostPart s := by
  rw [tickRdhdr] at h
  split at h
  · rcases s.srcRead_cases with ⟨_, hr⟩ | ⟨b, rest, _, hr⟩ <;> rw [hr] at h
    · cases h
      rfl
    · dsimp only at h
      split at h <;> cases h <;> rfl
  · cases h
    rfl

theorem hostPart_encodeFlush (s : State) : hostPart s.encodeFlush = hostPart s := by
  rw [State.encodeFlush]
  split <;> rfl

/-- The core on its own never writes the host's side. -/
theorem hostPart_tick (h : tick s = .next t) : hostPart t = hostPart s := by
  rw [tick] at h
  cases hp : s.phase with
  | flushing f =>
    cases f <;> rw [hp] at h <;> cases h
    · exact hostPart_encodeFlush s
    · rfl
  | streaming p =>
    rw [hp] at h
    cases p with
    | start i => exact hostPart_tickStart h
    | analyze => exact hostPart_tickAnalyze h
    | buildLoad k => exact hostPart_tickLoad h
    | buildMerge => exact hostPart_tickMerge h
    | gencode stack => exact hostPart_tickGencode h
    | wrhdr k j =>
      simp only [tickWrhdr] at h
      split at h <;> cases h <;> rfl
    | encode cs => exact hostPart_tickEncode h
    | rdhdr k j v => exact hostPart_tickRdhdr h
    | decode cs => exact hostPart_tickDecode h
  | _ =>
    rw [hp] at h
    cases h
    rfl

/-- No part of a step but a stream action writes `CB`, `SRC_OK` or `DST_OK` (10_state.md R50). -/
theorem signals_coreMove (h : CoreMove s t) :
    t.cb = s.cb ∧ t.srcOk = s.srcOk ∧ t.dstOk = s.dstOk := by
  cases h with
  | core h =>
    have hpart := hostPart_tick h
    simp only [hostPart, Prod.mk.injEq] at hpart
    obtain ⟨hcb, hsrc, hdst, -⟩ := hpart
    exact ⟨hcb, hsrc, hdst⟩
  | accept _ => exact ⟨rfl, rfl, rfl⟩
  | fault _ => exact ⟨rfl, rfl, rfl⟩
  | reset => exact ⟨rfl, rfl, rfl⟩
  | read a =>
    rw [State.readRegister]
    split <;> exact ⟨rfl, rfl, rfl⟩
  | script rest => exact ⟨rfl, rfl, rfl⟩

theorem signals_coreMoves (h : CoreMoves s t) :
    t.cb = s.cb ∧ t.srcOk = s.srcOk ∧ t.dstOk = s.dstOk := by
  refine h.keeps (P := fun u => u.cb = s.cb ∧ u.srcOk = s.srcOk ∧ u.dstOk = s.dstOk) ?_
    ⟨rfl, rfl, rfl⟩
  intro u v hu hm
  obtain ⟨hcb, hsrc, hdst⟩ := signals_coreMove hm
  rwa [hcb, hsrc, hdst]

theorem StreamAction.cb_eq {a : HostItem} (h : StreamAction a s t) : t.cb = s.cb := by
  cases h <;> rfl

theorem StreamAction.item {a : HostItem} (h : StreamAction a s t) :
    (∃ bytes, a = .src bytes) ∨ a = .nosrc ∨ a = .dst ∨ a = .nodst := by
  cases h <;> simp

end

/-- Settles O58: the parts of a step that are no stream action write none of the three. -/
theorem coreNeverDrivesHostSignals : Obligations.CoreNeverDrivesHostSignals := by
  refine ⟨fun s t h => ?_, fun s t h hno => ?_⟩
  · rcases step_cases h with ⟨a, rest, -, ha⟩ | hm
    · exact ha.cb_eq
    · exact (signals_coreMoves hm).1
  · rcases step_cases h with ⟨a, rest, hs, ha⟩ | hm
    · obtain ⟨hsrc, hnosrc, hdst, hnodst⟩ := hno a rest hs
      rcases ha.item with ⟨bytes, he⟩ | he | he | he
      · exact absurd he (hsrc bytes)
      · exact absurd he hnosrc
      · exact absurd he hdst
      · exact absurd he hnodst
    · exact (signals_coreMoves hm).2

/-! ### The stream actions -/

theorem tickStart_not_refused (i : Instr) (s : State) (r : Refusal) :
    tickStart i s ≠ .refused r := by
  cases i with
  | decode =>
    rw [tickStart]
    split
    · split <;> nofun
    · nofun
  | _ => nofun

/-- A step of the core has a meaning in every state. -/
theorem tick_not_refused (s : State) (r : Refusal) : tick s ≠ .refused r := by
  rw [tick]
  cases s.phase with
  | flushing f => cases f <;> nofun
  | streaming p =>
    cases p with
    | start i => exact tickStart_not_refused i s r
    | analyze =>
      simp only [tickAnalyze]
      split
      · nofun
      · split <;> nofun
    | buildLoad k =>
      simp only [tickLoad]
      split
      · split <;> nofun
      · split <;> nofun
    | buildMerge =>
      simp only [tickMerge]
      split <;> exact ofExcept_not_refused _ r
    | gencode stack =>
      cases stack with
      | nil => nofun
      | cons e rest =>
        simp only [tickGencode]
        split
        · nofun
        · split <;> nofun
    | wrhdr k j =>
      simp only [tickWrhdr]
      split <;> nofun
    | encode cs =>
      cases cs with
      | nil =>
        simp only [tickEncode]
        split
        · nofun
        · split <;> nofun
      | cons c cs => nofun
    | rdhdr k j v =>
      simp only [tickRdhdr]
      split
      · split
        · nofun
        · split <;> nofun
      · nofun
    | decode cs =>
      cases cs with
      | nil =>
        simp only [tickDecode]
        split <;> nofun
      | cons c cs => nofun
  | _ => nofun

theorem whenReady_refused {s t : State} {r : Refusal} (h : whenReady s t = .refused r) :
    r = .streamChangeWhileBusy ∧ s.busy = true := by
  rw [whenReady] at h
  split at h <;> cases h
  exact ⟨rfl, ‹_›⟩

theorem issueWord_not_refused (w : Byte) (s : State) (r : Refusal) :
    issueWord w s ≠ .refused r := by
  rw [issueWord]
  split
  · exact exec_not_refused s _ r
  · rw [illegalWord]
    split <;> nofun

/-- Only a stream action is refused, and only by a busy core (70_reset_and_hazards.md R344). -/
theorem hostAction_refused {a : HostItem} {s : State} {r : Refusal}
    (h : hostAction a s = .refused r) : r = .streamChangeWhileBusy ∧ s.busy = true ∧
      ((∃ bytes, a = .src bytes) ∨ a = .nosrc ∨ a = .dst ∨ a = .nodst) := by
  cases a with
  | src bytes => exact (whenReady_refused h).imp_right fun hb => ⟨hb, by simp⟩
  | nosrc => exact (whenReady_refused h).imp_right fun hb => ⟨hb, by simp⟩
  | dst => exact (whenReady_refused h).imp_right fun hb => ⟨hb, by simp⟩
  | nodst => exact (whenReady_refused h).imp_right fun hb => ⟨hb, by simp⟩
  | cmd w => exact absurd h (issueWord_not_refused w s r)
  | wait => exact absurd h (tick_not_refused s r)
  | stopIfError =>
    rw [hostAction] at h
    split at h <;> cases h
  | reset => cases h
  | offer w => cases h
  | rd a => cases h

theorem whenReady_of_ready {s t : State} (h : s.busy = false) : whenReady s t = .next t := by
  simp [whenReady, h]

theorem whenReady_of_busy {s t : State} (h : s.busy = true) :
    whenReady s t = .refused .streamChangeWhileBusy := by
  simp [whenReady, h]

/-- Settles O52: `whenReady` says when a stream action is done, and nothing else is refused. -/
theorem streamActionsOfTheHost : Obligations.StreamActionsOfTheHost := by
  refine ⟨fun s rest bytes => ⟨fun hb => ⟨?_, ?_, ?_, ?_⟩, fun hb a ha => ?_⟩, fun s r h => ?_⟩
  · exact whenReady_of_ready hb
  · exact whenReady_of_ready hb
  · exact whenReady_of_ready hb
  · exact whenReady_of_ready hb
  · rcases ha with rfl | rfl | rfl | rfl
    · exact whenReady_of_busy hb
    · exact whenReady_of_busy hb
    · exact whenReady_of_busy hb
    · exact whenReady_of_busy hb
  · rcases hs : s.script with _ | ⟨a, rest⟩
    · rw [step_nil hs] at h
      exact absurd h (tick_not_refused s r)
    by_cases hc : ∃ w, a = .cmd w
    · obtain ⟨w, rfl⟩ := hc
      rw [step_cmd hs] at h
      split at h
      · exact absurd h (tick_not_refused s r)
      · exact absurd h (issueWord_not_refused w _ r)
    · rw [step_action hs fun w hw => hc ⟨w, hw⟩] at h
      obtain ⟨hr, hb, ha⟩ := hostAction_refused h
      exact ⟨hr, hb, a, rest, rfl, ha⟩

end Sys2Proof.Machine
end

section
/-! The host's register map shows the state. -/

namespace Sys2Proof.Machine

open Sys2Proof.Safety

/-! ### `STATUS` -/

theorem readRegister_status (s : State) : (s.readRegister 0x000).readData = s.statusWord := by
  rw [State.readRegister, if_neg (by simp)]
  rfl

section
variable (s : State)

theorem State.statusWord_phase : s.statusWord.extractLsb' 0 3 = phaseCode s.phase :=
  BitVec.extractLsb'_append_eq_right

theorem State.statusWord_tv : s.statusWord.getLsbD 3 = s.tv := by
  simp only [State.statusWord, BitVec.getLsbD_append]
  simp

theorem State.statusWord_cv : s.statusWord.getLsbD 4 = s.cv := by
  simp only [State.statusWord, BitVec.getLsbD_append]
  simp

theorem State.statusWord_srcOk : s.statusWord.getLsbD 5 = s.srcOk := by
  simp only [State.statusWord, BitVec.getLsbD_append]
  simp

theorem State.statusWord_dstOk : s.statusWord.getLsbD 6 = s.dstOk := by
  simp only [State.statusWord, BitVec.getLsbD_append]
  simp

theorem State.statusWord_seven : s.statusWord.getLsbD 7 = false := by
  simp only [State.statusWord, BitVec.getLsbD_append]
  simp

theorem State.statusWord_err : s.statusWord.extractLsb' 8 4 = errCode s.err := by
  simp only [State.statusWord, BitVec.extractLsb'_append_eq_of_le, Nat.reduceLeDiff, Nat.reduceSub]
  exact BitVec.extractLsb'_append_eq_right

theorem State.statusWord_high : s.statusWord.extractLsb' 12 52 = 0 := by
  simp only [State.statusWord, BitVec.extractLsb'_append_eq_of_le, Nat.reduceLeDiff, Nat.reduceSub]
  rfl

end

/-- Settles O48: the word is read off field by field. -/
theorem statusShowsControlState : Obligations.StatusShowsControlState :=
  ⟨fun s => ⟨readRegister_status s, s.statusWord_phase, s.statusWord_tv, s.statusWord_cv,
      s.statusWord_srcOk, s.statusWord_dstOk, s.statusWord_seven, s.statusWord_err,
      s.statusWord_high⟩,
    ⟨rfl, fun _ => rfl, fun _ => rfl, rfl, rfl⟩, rfl, rfl, rfl, rfl, rfl, rfl, rfl, rfl, rfl⟩

/-! ### The ranges of register numbers (10_state.md R52) -/

theorem toNat_append_eq {m n : Nat} (x : BitVec m) (y : BitVec n) :
    (x ++ y).toNat = x.toNat * 2 ^ n + y.toNat := by
  rw [BitVec.toNat_append, ← Nat.shiftLeft_add_eq_or_of_lt y.isLt, Nat.shiftLeft_eq]

section
variable (s : State) {a : BitVec 12}

theorem State.register_freq (h : 0x100 ≤ a.toNat) (h' : a.toNat < 0x200) :
    s.register a = s.freqWord (BitVec.ofNat 8 (a.toNat - 0x100)) := by
  unfold State.register
  repeat rw [if_neg (by omega)]
  rw [if_pos h']

theorem State.register_pq (h : 0x200 ≤ a.toNat) (h' : a.toNat < 0x300) :
    s.register a = s.pqWord (a.toNat - 0x200) := by
  unfold State.register
  repeat rw [if_neg (by omega)]
  rw [if_pos h']

theorem State.register_node (h : 0x400 ≤ a.toNat) (h' : a.toNat < 0x7FE) :
    s.register a =
      if a.toNat % 2 = 0 then s.nodeWord0 (s.nodeNumbered ((a.toNat - 0x400) / 2))
      else s.nodeWord1 (s.nodeNumbered ((a.toNat - 0x400) / 2)) := by
  unfold State.register
  repeat rw [if_neg (by omega)]
  rw [if_pos h']

theorem State.register_code (h : 0x800 ≤ a.toNat) :
    s.register a = codeWord (s.codeAt (BitVec.ofNat 8 ((a.toNat - 0x800) / 8))) (a.toNat % 8) := by
  unfold State.register
  repeat rw [if_neg (by omega)]

theorem State.register_reserved (h : (0x007 ≤ a.toNat ∧ a.toNat ≤ 0x0FF) ∨
    (0x300 ≤ a.toNat ∧ a.toNat ≤ 0x3FF) ∨ (0x7FE ≤ a.toNat ∧ a.toNat ≤ 0x7FF)) :
    s.register a = 0 := by
  unfold State.register
  rcases h with h | h | h <;> repeat rw [if_neg (by omega)]
  all_goals rw [if_pos (by omega)]

/-! ### The words -/

theorem nodeBits_toNat (n : NodeIdx) : (nodeBits n).toNat = n.val := by
  have hn := n.isLt
  simp only [nodeBits, BitVec.toNat_ofNat]
  omega

theorem nodeBits_setWidth_toNat (n : NodeIdx) : ((nodeBits n).setWidth 64).toNat = n.val := by
  have hn := n.isLt
  rw [BitVec.toNat_setWidth, nodeBits_toNat]
  omega

theorem State.encaccWord_toNat : s.encaccWord.toNat = 256 * s.accn.val + s.acc.toNat := by
  have hn := s.accn.isLt
  simp only [State.encaccWord, toNat_append_eq, BitVec.toNat_ofNat]
  omega

theorem State.paramWord_toNat :
    s.paramWord.toNat = countBytes s.cb + 16 + 256 * weightBits s.cb := by
  have hc := countBytes_le s.cb
  simp only [State.paramWord, weightBits, toNat_append_eq, BitVec.toNat_ofNat]
  omega

/-- A value that fits a width is kept by that width. -/
theorem setWidth_setWidth_of_lt {m n : Nat} {x : BitVec m} (h : x.toNat < 2 ^ n) :
    (x.setWidth n).setWidth m = x := by
  apply BitVec.eq_of_toNat_eq
  rw [BitVec.toNat_setWidth, BitVec.toNat_setWidth, Nat.mod_eq_of_lt h, Nat.mod_eq_of_lt x.isLt]

theorem State.freqWord_eq {s : State} (h : CountsFit s) (b : Byte) : s.freqWord b = s.freqAt b := by
  have hpos : 0 < 2 ^ (8 * countBytes s.cb) := Nat.pow_pos (by omega)
  have hb : (s.freqAt b).toNat ≤ 2 ^ (8 * countBytes s.cb) - 1 := h b
  exact setWidth_setWidth_of_lt (by omega)

theorem State.pqWord_toNat (k : Nat) :
    (s.pqWord k).toNat = ((s.pq[k]?).map Fin.val).getD 0x1FF := by
  rw [State.pqWord]
  cases s.pq[k]? with
  | none => rfl
  | some n => exact nodeBits_setWidth_toNat n

theorem State.nodeWord1_toNat {s : State} {r : Node} (h : r.w.toNat < 2 ^ weightBits s.cb) :
    (s.nodeWord1 r).toNat = r.w.toNat / 2 ^ 64 + 2 ^ 8 * r.sym.toNat + 2 ^ 16 * r.left.val
      + 2 ^ 25 * r.right.val + 2 ^ 34 * (kindCode r.kind).toNat := by
  have hw := r.w.isLt
  rw [State.nodeWord1, State.shownWeight, setWidth_setWidth_of_lt h]
  simp only [toNat_append_eq, BitVec.extractLsb'_toNat, BitVec.toNat_ofNat, nodeBits_toNat,
    Nat.shiftRight_eq_div_pow]
  omega

theorem codeWord_zero_toNat (r : CodeRec) :
    (codeWord r 0).toNat = r.len.toNat + 256 * r.valid.toNat := by
  simp only [codeWord, toNat_append_eq, BitVec.toNat_ofNat, BitVec.toNat_ofBool]
  omega

/-- Words 1 to 4 are `BITS` with a 0 above it. -/
theorem codeWord_bits (r : CodeRec) {k : Nat} (hk : k < 4) :
    codeWord r (k + 1) = (r.bits.setWidth 256).extractLsb' (64 * k) 64 := by
  have hlow : ∀ st, st + 64 ≤ 255 →
      r.bits.extractLsb' st 64 = (r.bits.setWidth 256).extractLsb' st 64 := by
    intro st hst
    apply BitVec.eq_of_getLsbD_eq
    intro i hi
    simp only [BitVec.getLsbD_extractLsb', BitVec.getLsbD_setWidth]
    rw [decide_eq_true (show st + i < 256 by omega), Bool.true_and]
  have htop : 0#1 ++ r.bits.extractLsb' 192 63 = (r.bits.setWidth 256).extractLsb' 192 64 := by
    apply BitVec.eq_of_getLsbD_eq
    intro i hi
    simp only [BitVec.getLsbD_append, BitVec.getLsbD_extractLsb', BitVec.getLsbD_setWidth]
    by_cases hi' : i < 63
    · simp [hi', hi, show 192 + i < 256 by omega]
    · have hz : r.bits.getLsbD (192 + i) = false := BitVec.getLsbD_of_ge _ _ (by omega)
      simp [hi', hz]
  rcases k with _ | _ | _ | _ | k
  · exact hlow 0 (by omega)
  · exact hlow 64 (by omega)
  · exact hlow 128 (by omega)
  · exact htop
  · omega

theorem codeWord_reserved (r : CodeRec) (k : Nat) : codeWord r (k + 5) = 0 := rfl

/-! ### The registers -/

theorem State.register_freqAt {s : State} (h : CountsFit s) {k : Nat} (hk : k < 256) :
    s.register (BitVec.ofNat 12 (0x100 + k)) = s.freqAt (BitVec.ofNat 8 k) := by
  have ha : (BitVec.ofNat 12 (0x100 + k)).toNat = 0x100 + k := Nat.mod_eq_of_lt (by omega)
  rw [s.register_freq (by omega) (by omega), ha, Nat.add_sub_cancel_left, State.freqWord_eq h]

theorem State.register_pq_toNat {k : Nat} (hk : k < 256) :
    (s.register (BitVec.ofNat 12 (0x200 + k))).toNat = ((s.pq[k]?).map Fin.val).getD 0x1FF := by
  have ha : (BitVec.ofNat 12 (0x200 + k)).toNat = 0x200 + k := Nat.mod_eq_of_lt (by omega)
  rw [s.register_pq (by omega) (by omega), ha, Nat.add_sub_cancel_left, State.pqWord_toNat]

theorem State.register_node_even {s : State} {n : NodeIdx}
    (h : (s.weight n).toNat < 2 ^ weightBits s.cb) :
    s.register (BitVec.ofNat 12 (0x400 + 2 * n.val)) = (s.weight n).extractLsb' 0 64 := by
  have hn := n.isLt
  have ha : (BitVec.ofNat 12 (0x400 + 2 * n.val)).toNat = 0x400 + 2 * n.val :=
    Nat.mod_eq_of_lt (by omega)
  rw [s.register_node (by omega) (by omega), ha, if_pos (by omega), Nat.add_sub_cancel_left,
    Nat.mul_div_cancel_left _ (by omega)]
  exact congrArg _ (setWidth_setWidth_of_lt h)

theorem State.register_node_odd (n : NodeIdx) :
    s.register (BitVec.ofNat 12 (0x401 + 2 * n.val)) = s.nodeWord1 (s.nodeAt n) := by
  have hn := n.isLt
  have ha : (BitVec.ofNat 12 (0x401 + 2 * n.val)).toNat = 0x401 + 2 * n.val :=
    Nat.mod_eq_of_lt (by omega)
  have hidx : (0x401 + 2 * n.val - 0x400) / 2 = n.val := by omega
  rw [s.register_node (by omega) (by omega), ha, if_neg (by omega), hidx]
  rfl

/-- The register number `0x800 + 8*b + k` holds word `k` of `CODE[b]`. -/
theorem State.register_codeWord (b : Byte) {k : Nat} (hk : k < 8)
    (h : a = BitVec.ofNat 12 (0x800 + 8 * b.toNat + k)) :
    s.register a = codeWord (s.codeAt b) k := by
  have hb := b.isLt
  have ha : a.toNat = 0x800 + 8 * b.toNat + k := by
    rw [h]
    exact Nat.mod_eq_of_lt (by omega)
  have hidx : (a.toNat - 0x800) / 8 = b.toNat := by omega
  have hword : a.toNat % 8 = k := by omega
  rw [s.register_code (by omega), hidx, hword, BitVec.ofNat_toNat, BitVec.setWidth_eq]

end

/-- Settles O49: every number falls into one range, and the range's word is read off. -/
theorem registerMapShowsState : Obligations.RegisterMapShowsState := by
  refine ⟨⟨rfl, rfl⟩, fun s hcounts hweights hnodes hpq =>
    ⟨nodeBits_setWidth_toNat s.root, Nat.mod_eq_of_lt (by omega), Nat.mod_eq_of_lt (by omega),
      s.encaccWord_toNat, nodeBits_setWidth_toNat s.cur, s.paramWord_toNat,
      fun k hk => State.register_freqAt hcounts hk, fun k hk => s.register_pq_toNat hk,
      fun n => State.register_node_even (hweights n), fun n => ?_, fun b => ?_, fun b k hk => ?_,
      fun b k hk => ?_, fun a ha => s.register_reserved ha⟩⟩
  · rw [s.register_node_odd n]
    exact State.nodeWord1_toNat (hweights n)
  · have hword : s.register (BitVec.ofNat 12 (0x800 + 8 * b.toNat)) = codeWord (s.codeAt b) 0 :=
      s.register_codeWord b (by omega) rfl
    rw [hword, codeWord_zero_toNat]
  · rw [s.register_codeWord b (k := k + 1) (by omega) (congrArg _ (by omega)), codeWord_bits _ hk]
  · rw [s.register_codeWord b (k := k + 5) (by omega) (congrArg _ (by omega)), codeWord_reserved]

end Sys2Proof.Machine
end

section
/-! The commands and the two streams: what a step reads and writes, and where a running command ends. -/

namespace Sys2Proof.Machine

open Sys2Proof.Safety

/-! ### Where a running command ends -/

/-- A core left to itself, counted: some number of its own steps, all but the last state busy. -/
theorem Runs.exists_ticks {s t : State} (h : Runs s t) :
    ∃ n, ticks n s = .next t ∧ ∀ m < n, ∃ u, ticks m s = .next u ∧ u.busy = true := by
  induction h with
  | refl s => exact ⟨0, rfl, nofun⟩
  | @head s u t hb h _ ih =>
    have hticks : ∀ n, ticks (n + 1) s = ticks n u := fun n => by rw [ticks, h]
    obtain ⟨n, hn, hbusy⟩ := ih
    refine ⟨n + 1, (hticks n).trans hn, fun m hm => ?_⟩
    cases m with
    | zero => exact ⟨s, rfl, hb⟩
    | succ m =>
      rw [hticks]
      exact hbusy m (Nat.lt_of_succ_lt_succ hm)

/-- Settles O54: the run of `runs_of_exec`, counted. -/
theorem runningCommandReachesItsMeaning : Obligations.RunningCommandReachesItsMeaning := by
  intro w i s t hw ha h
  refine ⟨?_, ?_, (runs_of_exec ha h).exists_ticks⟩
  · rwa [issueWord, hw]
  · rw [offerWord, hw, ha]

/-! ### What a step reads and writes -/

/-- What one step of the core does to the streams: nothing, the removal of the first byte of `ISTR`,
or one byte appended to `OSTR` (00_scope.md R12). -/
inductive StreamMove (s t : State) : Prop
  | quiet (hi : t.istr = s.istr) (ho : t.ostr = s.ostr)
  | read {b : Byte} (hi : s.istr = b :: t.istr) (ho : t.ostr = s.ostr)
  | write {b : Byte} (hi : t.istr = s.istr) (ho : t.ostr = s.ostr ++ [b])

section
variable {s t : State}

theorem streamMove_tickStart {i : Instr} (h : tickStart i s = .next t) : StreamMove s t := by
  cases i with
  | decode =>
    rw [tickStart] at h
    split at h
    · split at h <;> cases h <;> exact .quiet rfl rfl
    · cases h
      exact .quiet rfl rfl
  | _ =>
    cases h
    exact .quiet rfl rfl

theorem streamMove_tickAnalyze (h : tickAnalyze s = .next t) : StreamMove s t := by
  rcases s.srcRead_cases with ⟨_, hr⟩ | ⟨b, rest, hi, hr⟩ <;> rw [tickAnalyze, hr] at h
  · cases h
    exact .quiet rfl rfl
  · rcases analyzeByte_cases b (s.setIstr rest) with ⟨_, hb⟩ | ⟨_, hb⟩ <;> simp only [hb] at h <;>
      cases h <;> exact .read hi rfl

theorem streamMove_tickLoad {k : Nat} (h : tickLoad k s = .next t) : StreamMove s t := by
  rw [tickLoad] at h
  split at h
  · rcases hl : loadSymbol s (BitVec.ofNat 8 k) with f | u <;> rw [hl] at h <;> cases h
    rw [loadSymbol_frame hl]
    exact .quiet rfl rfl
  · split at h <;> cases h <;> exact .quiet rfl rfl

theorem streamMove_tickMerge (h : tickMerge s = .next t) : StreamMove s t := by
  rw [tickMerge] at h
  split at h
  · rw [mergeOnce_frame (ofExcept_next h)]
    exact .quiet rfl rfl
  · obtain ⟨r, rest, -, rfl⟩ := buildFinish_ok (ofExcept_next h)
    exact .quiet rfl rfl

theorem streamMove_tickGencode {stack : List (NodeIdx × List Bool)}
    (h : tickGencode stack s = .next t) : StreamMove s t := by
  rcases stack with _ | ⟨⟨n, path⟩, rest⟩
  · cases h
    exact .quiet rfl rfl
  · rw [tickGencode] at h
    split at h
    · cases h
    · split at h <;> cases h <;> exact .quiet rfl rfl

theorem streamMove_tickWrhdr {k j : Nat} (h : tickWrhdr k j s = .next t) : StreamMove s t := by
  rw [tickWrhdr] at h
  split at h <;> cases h
  · exact .write rfl rfl
  · exact .quiet rfl rfl

theorem streamMove_tickEncode {cs : List Bool} (h : tickEncode cs s = .next t) :
    StreamMove s t := by
  rcases cs with _ | ⟨c, cs⟩
  · rcases s.srcRead_cases with ⟨_, hr⟩ | ⟨b, rest, hi, hr⟩ <;> rw [tickEncode, hr] at h
    · cases h
      exact .quiet rfl rfl
    · dsimp only at h
      split at h <;> cases h <;> exact .read hi rfl
  · cases h
    rcases s.putbit_cases c with ⟨_, he⟩ | ⟨_, he⟩ <;> rw [he]
    · exact .write rfl rfl
    · exact .quiet rfl rfl

theorem streamMove_tickRdhdr {k j : Nat} {v : Count} (h : tickRdhdr k j v s = .next t) :
    StreamMove s t := by
  rw [tickRdhdr] at h
  split at h
  · rcases s.srcRead_cases with ⟨_, hr⟩ | ⟨b, rest, hi, hr⟩ <;> rw [hr] at h
    · cases h
      exact .quiet rfl rfl
    · dsimp only at h
      split at h <;> cases h <;> exact .read hi rfl
  · cases h
    exact .quiet rfl rfl

theorem streamMove_tickDecode {cs : List Bool} (h : tickDecode cs s = .next t) :
    StreamMove s t := by
  rcases cs with _ | ⟨c, cs⟩
  · rcases s.srcRead_cases with ⟨_, hr⟩ | ⟨b, rest, hi, hr⟩ <;> rw [tickDecode, hr] at h <;> cases h
    · exact .quiet rfl rfl
    · exact .read hi rfl
  · cases h
    rcases s.walkBit_cases c with ⟨_, he⟩ | ⟨_, he⟩ <;> rw [he]
    · exact .write rfl rfl
    · exact .quiet rfl rfl

theorem streamMove_encodeFlush (s : State) : StreamMove s s.encodeFlush := by
  rw [State.encodeFlush]
  split
  · exact .write rfl rfl
  · exact .quiet rfl rfl

/-- A step of the core reads at most one byte or writes at most one byte. -/
theorem streamMove_tick (h : tick s = .next t) : StreamMove s t := by
  rw [tick] at h
  cases hp : s.phase with
  | flushing f =>
    cases f <;> rw [hp] at h <;> cases h
    · exact streamMove_encodeFlush s
    · exact .quiet rfl rfl
  | streaming p =>
    rw [hp] at h
    cases p with
    | start i => exact streamMove_tickStart h
    | analyze => exact streamMove_tickAnalyze h
    | buildLoad k => exact streamMove_tickLoad h
    | buildMerge => exact streamMove_tickMerge h
    | gencode stack => exact streamMove_tickGencode h
    | wrhdr k j => exact streamMove_tickWrhdr h
    | encode cs => exact streamMove_tickEncode h
    | rdhdr k j v => exact streamMove_tickRdhdr h
    | decode cs => exact streamMove_tickDecode h
  | _ =>
    rw [hp] at h
    cases h
    exact .quiet rfl rfl

/-! ### The order of the streams -/

theorem StreamMove.keeps_order (h : StreamMove s t) : s.ostr <+: t.ostr ∧ t.istr <:+ s.istr := by
  cases h with
  | quiet hi ho =>
    rw [hi, ho]
    exact ⟨List.prefix_rfl, List.suffix_rfl⟩
  | read hi ho =>
    rw [hi, ho]
    exact ⟨List.prefix_rfl, List.suffix_cons _ _⟩
  | write hi ho =>
    rw [hi, ho]
    exact ⟨List.prefix_append _ _, List.suffix_rfl⟩

theorem Runs.keeps_order (h : Runs s t) : s.ostr <+: t.ostr ∧ t.istr <:+ s.istr := by
  induction h with
  | refl => exact ⟨List.prefix_rfl, List.suffix_rfl⟩
  | head _ h _ ih =>
    obtain ⟨ho, hi⟩ := (streamMove_tick h).keeps_order
    exact ⟨ho.trans ih.1, ih.2.trans hi⟩

end

/-- Settles O47: each step of the core keeps the order, so does the run an accepted command makes,
and acceptance itself touches neither stream. -/
theorem streamsKeepOrder : Obligations.StreamsKeepOrder := by
  refine ⟨fun i s t h => ?_, fun s t h => (streamMove_tick h).keeps_order⟩
  by_cases ha : s.acceptance (some i) = .runs i
  · exact (runs_of_exec ha h).keeps_order
  · rcases exec_not_running s ha with he | ⟨e, he⟩ <;> rw [he] at h <;> cases h <;>
      exact ⟨List.prefix_rfl, List.suffix_rfl⟩

end Sys2Proof.Machine
end

section
/-! The decoder and the encoder agree, and the step of a ready core runs the decoded command. -/

namespace Sys2Proof.Laws

/-! ### The decoder by its first word -/

theorem roundTrip (i : Instr) : RoundTrip.Statement i := by
  cases i with
  | clear => exact RoundTrip.clear
  | analyze => exact RoundTrip.analyze
  | build => exact RoundTrip.build
  | gencode => exact RoundTrip.gencode
  | wrhdr => exact RoundTrip.wrhdr
  | encode => exact RoundTrip.encode
  | rdhdr => exact RoundTrip.rdhdr
  | decode => exact RoundTrip.decode

theorem decode_encode (i : Instr) (rest : List Byte) :
    decode (encode i ++ rest) = .ok (i, rest) := by
  obtain ⟨-, -, -, hdec⟩ := roundTrip i
  exact hdec rest

theorem decode_cons_of_some {w : Byte} {i : Instr} (h : decodeWord w = some i) (rest : List Byte) :
    decode (w :: rest) = .ok (i, rest) := by
  simp [decode, h]

theorem decode_cons_of_none {w : Byte} (h : decodeWord w = none) (rest : List Byte) :
    decode (w :: rest) = .error (.illegalWord w) := by
  simp [decode, h]

theorem decode_cons_ok {w : Byte} {rest after : List Byte} {i : Instr}
    (h : decode (w :: rest) = .ok (i, after)) : decodeWord w = some i ∧ after = rest := by
  cases hw : decodeWord w with
  | none =>
    rw [decode_cons_of_none hw] at h
    cases h
  | some j =>
    rw [decode_cons_of_some hw] at h
    cases h
    exact ⟨rfl, rfl⟩

/-- The opcode map has a row for every legal word and for no other (30_encoding.md R103). -/
theorem isSome_decodeWord (w : Byte) : (decodeWord w).isSome = legalWord w := by
  revert w
  decide +kernel

theorem legalWord_iff (w : Byte) : legalWord w = true ↔ 1 ≤ w.toNat ∧ w.toNat ≤ 8 := by
  simp [legalWord]

theorem exists_decodeWord_iff (w : Byte) :
    (∃ i, decodeWord w = some i) ↔ 1 ≤ w.toNat ∧ w.toNat ≤ 8 := by
  rw [← Option.isSome_iff_exists, isSome_decodeWord, legalWord_iff]

theorem decodeWord_eq_none {w : Byte} (h : w.toNat = 0 ∨ 9 ≤ w.toNat) : decodeWord w = none := by
  by_contra hne
  have hlegal := (exists_decodeWord_iff w).mp (Option.ne_none_iff_exists'.mp hne)
  omega

theorem decodeTableWord_eq (nbits w : Nat) :
    decodeTableWord nbits w = decodeWord (tableWord nbits w) := by
  rw [decodeTableWord]
  cases h : decodeWord (tableWord nbits w) with
  | none => rw [decode_cons_of_none h]
  | some i => rw [decode_cons_of_some h]

/-! ### The opcode map -/

/-- Settles O2: the round trip of every command, and the decoder read backwards. -/
theorem decodeAndEncodeAgree : Obligations.DecodeAndEncodeAgree := by
  refine ⟨fun i rest _ => decode_encode i rest, fun w rest after i h => ?_⟩
  obtain ⟨hw, hafter⟩ := decode_cons_ok h
  rw [(decodeWord_eq_some_iff w i).mp hw]
  exact ⟨rfl, hafter⟩

/-- Settles O1: each word is the encoding of its command. -/
theorem opcodeMapWords : Obligations.OpcodeMapWords :=
  ⟨decode_encode .clear [], decode_encode .analyze [], decode_encode .build [],
    decode_encode .gencode [], decode_encode .wrhdr [], decode_encode .encode [],
    decode_encode .rdhdr [], decode_encode .decode []⟩

/-- Settles O3: a word outside the opcode map has no command, and 248 words are outside. -/
theorem illegalWordsRejected : Obligations.IllegalWordsRejected :=
  ⟨exists_decodeWord_iff, fun _ rest h => decode_cons_of_none (decodeWord_eq_none h) rest,
    by decide +kernel⟩

end Sys2Proof.Laws

namespace Sys2Proof.Machine

/-! ### The step on an issued word -/

/-- A ready core takes the word the host waits with. -/
theorem step_cmd_of_ready {s : State} {w : Byte} {rest : List HostItem} (hb : s.busy = false)
    (hs : s.script = .cmd w :: rest) : step s = issueWord w { s with script := rest } := by
  simp [step_cmd hs, hb]

theorem step_withCommand {s : State} (hb : s.busy = false) (w : Byte) :
    step (s.withCommand w) = issueWord w s :=
  step_cmd_of_ready (s := s.withCommand w) hb rfl

theorem issueWord_of_some {w : Byte} {i : Instr} (h : decodeWord w = some i) (s : State) :
    issueWord w s = exec i s := by
  rw [issueWord, h]

theorem issueWord_of_none {w : Byte} (h : decodeWord w = none) (s : State) :
    issueWord w s = illegalWord s := by
  rw [issueWord, h]

/-- Settles O51: a ready core issues the word at the head of its script, wherever it came from. -/
theorem stepRunsDecodedCommand : Obligations.StepRunsDecodedCommand := by
  refine ⟨fun s w i rest hb hs hw => ?_, fun s nbits w i hb hw => ?_, fun s w rest hb hs hw => ?_⟩
  · rw [step_cmd_of_ready hb hs, issueWord_of_some hw]
  · rw [Laws.decodeTableWord_eq] at hw
    rw [State.withFetchWord, step_withCommand hb, issueWord_of_some hw]
  · rw [step_cmd_of_ready hb hs, issueWord_of_none hw]

end Sys2Proof.Machine
end

section
/-! The header read: each count `RDHDR` assembles is the little-endian value of its bytes. -/

namespace Sys2Proof.Machine

open Sys2Proof.Safety

/-! ### The value of consecutive bytes -/

@[simp] theorem countValue_zero (h : List Byte) (start : Nat) : countValue h start 0 = 0 := rfl

/-- The first byte counts once, the value of the rest 256 times. -/
theorem countValue_cons (b : Byte) (h : List Byte) (n : Nat) :
    countValue (b :: h) 0 (n + 1) = b.toNat + 2 ^ 8 * countValue h 0 n := by
  have hshift : ∀ j, ((b :: h).getD (0 + (j + 1)) 0).toNat * 2 ^ (8 * (j + 1)) =
      2 ^ 8 * ((h.getD (0 + j) 0).toNat * 2 ^ (8 * j)) := by
    intro j
    rw [← Nat.add_assoc, List.getD_cons_succ]
    ring
  simp only [countValue, List.range_succ_eq_map, List.map_cons, List.map_map, List.sum_cons,
    Function.comp_def, Nat.succ_eq_add_one, hshift, List.sum_map_mul_left]
  simp

theorem countValue_drop (h : List Byte) (m start n : Nat) :
    countValue (h.drop m) start n = countValue h (m + start) n := by
  simp [countValue, List.getD_eq_getElem?_getD, List.getElem?_drop, Nat.add_assoc]

/-! ### One count -/

/-- A part of `8*j` bits and one more byte fit the 64 bits of a count. -/
theorem add_byte_mul_lt {n j : Nat} (b : Byte) (hj : j < 8) (hn : n < 2 ^ (8 * j)) :
    n + b.toNat * 2 ^ (8 * j) < 2 ^ 64 := by
  have hb : (b.toNat + 1) * 2 ^ (8 * j) ≤ 2 ^ 8 * 2 ^ (8 * j) := Nat.mul_le_mul_right _ b.isLt
  have hfit : 2 ^ (8 + 8 * j) ≤ 2 ^ 64 := Nat.pow_le_pow_right (by omega) (by omega)
  rw [Nat.succ_mul] at hb
  rw [Nat.pow_add] at hfit
  omega

theorem toNat_countPart {j : Nat} (b : Byte) (hj : j < 8) :
    (countPart b j).toNat = b.toNat * 2 ^ (8 * j) := by
  have hfit := add_byte_mul_lt b hj (Nat.two_pow_pos _)
  rw [countPart, BitVec.toNat_shiftLeft, BitVec.toNat_setWidth_of_le (by omega), Nat.shiftLeft_eq,
    Nat.mod_eq_of_lt (by omega)]

theorem toNat_add_countPart_eq {v : Count} {j : Nat} (b : Byte) (hj : j < 8)
    (hv : v.toNat < 2 ^ (8 * j)) :
    (v + countPart b j).toNat = v.toNat + b.toNat * 2 ^ (8 * j) := by
  rw [BitVec.toNat_add, toNat_countPart b hj, Nat.mod_eq_of_lt (add_byte_mul_lt b hj hv)]

/-- The bytes of a count from byte `j` on, onto the part `v` (30_encoding.md R108). -/
theorem readCount_eq (left j : Nat) (v : Count) (s : State) (hj : j + left ≤ 8)
    (hv : v.toNat < 2 ^ (8 * j)) (hl : left ≤ s.istr.length) :
    ∃ w : Count, readCount left j v s = (some w, s.setIstr (s.istr.drop left)) ∧
      w.toNat = v.toNat + 2 ^ (8 * j) * countValue s.istr 0 left := by
  induction left generalizing j v s with
  | zero => exact ⟨v, by simp [readCount], by simp⟩
  | succ left ih =>
    rcases s.srcRead_cases with ⟨hi, _⟩ | ⟨b, rest, hi, hr⟩ <;> rw [hi] at hl
    · exact absurd hl (by simp)
    · obtain ⟨w, hw, hval⟩ := ih (j + 1) (v + countPart b j) (s.setIstr rest) (by omega)
        (toNat_add_countPart b hv) (Nat.le_of_succ_le_succ hl)
      refine ⟨w, by simpa [readCount, hr, hi] using hw, ?_⟩
      rw [hval, toNat_add_countPart_eq b (by omega) hv, hi, countValue_cons, State.setIstr_istr]
      ring

/-! ### The whole header -/

/-- The counts of the symbols `syms`, all of whose bytes are there, are read in their order; what is
left is the header of the symbols after them (30_encoding.md R108, 45_decoder.md R251). -/
theorem readHeader_append (syms more : List Byte) (s : State) (hnd : syms.Nodup)
    (hl : syms.length * countBytes s.cb ≤ s.istr.length) :
    ∃ f : ByteTable Count,
      readHeader (syms ++ more) s =
        readHeader more { s with freq := f, istr := s.istr.drop (syms.length * countBytes s.cb) } ∧
      (∀ (m : Nat) (hm : m < syms.length),
        (f.atByte syms[m]).toNat = countValue s.istr (m * countBytes s.cb) (countBytes s.cb)) ∧
      ∀ b ∉ syms, f.atByte b = s.freqAt b := by
  induction syms generalizing s with
  | nil => exact ⟨s.freq, by simp, by simp, fun _ _ => rfl⟩
  | cons sym syms ih =>
    obtain ⟨hsym, hnd⟩ := List.nodup_cons.mp hnd
    rw [List.length_cons, Nat.succ_mul] at hl
    obtain ⟨w, hw, hval⟩ := readCount_eq (countBytes s.cb) 0 0 s
      (by have := countBytes_le s.cb; omega) (by simp) (by omega)
    obtain ⟨f, hf, hread, hrest⟩ :=
      ih ((s.setIstr (s.istr.drop (countBytes s.cb))).setFreq sym w) hnd
        (by simp only [State.setFreq, State.setIstr, List.length_drop]; omega)
    have hfirst : f.atByte sym = w := by rw [hrest sym hsym, State.freqAt_setFreq_self]
    refine ⟨f, ?_, fun m hm => ?_, fun b hb => ?_⟩
    · rw [List.cons_append, readHeader, hw, List.length_cons, Nat.succ_mul, Nat.add_comm,
        ← List.drop_drop]
      exact hf
    · cases m with
      | zero => simpa [hfirst] using hval
      | succ m =>
        rw [Nat.succ_mul, Nat.add_comm (m * _), ← countValue_drop]
        exact hread m (Nat.lt_of_succ_lt_succ hm)
    · obtain ⟨hne, hb⟩ := not_or.mp (List.mem_cons.not.mp hb)
      rw [hrest b hb, State.freqAt_setFreq, if_neg hne]
      rfl

theorem getElem_allSymbols (b : Byte) (h : b.toNat < allSymbols.length) :
    allSymbols[b.toNat] = b := by
  simp [allSymbols]

theorem acceptance_rdhdr {s : State} (ha : Accepting s) (hsrc : s.srcOk = true) :
    s.acceptance (some .rdhdr) = .runs .rdhdr := by
  rw [State.acceptance_of_accepting ha]
  simp [State.check, needs, State.flagHolds, hsrc]

/-- Settles O39: the header is the counts of all symbols in ascending order, and ends there. -/
theorem rdhdrReadsCounts : Obligations.RdhdrReadsCounts := by
  intro s ha hsrc hl
  obtain ⟨f, hf, hread, -⟩ := readHeader_append allSymbols [] (s.begin .rdhdr).zeroCounts
    nodup_allSymbols (by rwa [length_allSymbols])
  rw [List.append_nil, length_allSymbols] at hf
  refine ⟨_, (runCommand_of_runs (fun t => .next (rdhdrBody t)) (acceptance_rdhdr ha hsrc)).trans
    (congrArg _ hf), fun b => ?_, rfl⟩
  have hb := hread b.toNat (by rw [length_allSymbols]; exact b.isLt)
  rw [getElem_allSymbols] at hb
  exact hb

end Sys2Proof.Machine
end

section
/-! The counting commands: the loop of `ANALYZE` counts the bytes it reads until the stream ends or a
count is full, and neither `ANALYZE` nor `RDHDR` writes anything but counts, flags, `PHASE`, `ERR` and
`ISTR`. -/

namespace Sys2Proof.Machine

open Sys2Proof.Safety

/-! ### One byte of `ANALYZE` -/

section
variable {s : State} {b : Byte}

theorem analyzeByte_of_lt (h : (s.freqAt b).toNat < countMax s.cb) :
    analyzeByte b s = (none, s.setFreq b (s.freqAt b + 1)) :=
  if_neg h.ne

theorem analyzeByte_of_full (h : (s.freqAt b).toNat = countMax s.cb) :
    analyzeByte b s = (some .countOverflow, s) :=
  if_pos h

/-- A count below `CMAX` takes one more without wrapping (40_frequency.md R142). -/
theorem toNat_count_succ (h : (s.freqAt b).toNat < countMax s.cb) :
    (s.freqAt b + 1).toNat = (s.freqAt b).toNat + 1 := by
  rw [BitVec.toNat_add]
  exact Nat.mod_eq_of_lt (lt_of_le_of_lt h (countMax_lt s.cb))

/-- What is counted and what is still to count stay the same together when a byte goes from the one to
the other. -/
theorem counted_add_count_cons (h : (s.freqAt b).toNat < countMax s.cb) (bytes : List Byte)
    (c : Byte) :
    ((s.setFreq b (s.freqAt b + 1)).freqAt c).toNat + bytes.count c =
      (s.freqAt c).toNat + (b :: bytes).count c := by
  rw [State.freqAt_setFreq]
  split
  · subst c
    rw [toNat_count_succ h, List.count_cons_self]
    omega
  next hne => rw [List.count_cons_of_ne (Ne.symm hne)]

end

/-! ### The loop of `ANALYZE` -/

/-- The loop of `ANALYZE`, standing before the bytes of `ISTR` (40_frequency.md R141). -/
def analyzeLoop (s : State) : State :=
  streamLoop analyzeByte State.complete s.istr.length s

theorem analyzeBody_eq (s : State) : analyzeBody s = analyzeLoop s.zeroCounts := rfl

section
variable {s : State} {b : Byte} {rest : List Byte}

theorem analyzeLoop_nil (hi : s.istr = []) : analyzeLoop s = s.complete :=
  streamLoop_nil _ _ hi

theorem analyzeLoop_cons_of_lt (hi : s.istr = b :: rest) (h : (s.freqAt b).toNat < countMax s.cb) :
    analyzeLoop s = analyzeLoop ((s.setIstr rest).setFreq b (s.freqAt b + 1)) := by
  rw [analyzeLoop, streamLoop_cons _ _ hi, analyzeByte_of_lt (s := s.setIstr rest) h]
  rfl

theorem analyzeLoop_cons_of_full (hi : s.istr = b :: rest)
    (h : (s.freqAt b).toNat = countMax s.cb) :
    analyzeLoop s = (s.setIstr rest).raise .countOverflow := by
  rw [analyzeLoop, streamLoop_cons _ _ hi, analyzeByte_of_full (s := s.setIstr rest) h]

/-- The loop counts a part of the stream on which no count overflows, and goes on with the rest
(40_frequency.md R142). -/
theorem analyzeLoop_append (seen : List Byte) (hi : s.istr = seen ++ rest)
    (hfit : ∀ c, (s.freqAt c).toNat + seen.count c ≤ countMax s.cb) :
    ∃ f : ByteTable Count, (∀ c, (f.atByte c).toNat = (s.freqAt c).toNat + seen.count c) ∧
      analyzeLoop s = analyzeLoop { s with istr := rest, freq := f } := by
  induction seen generalizing s with
  | nil =>
    obtain rfl : s.istr = rest := hi
    exact ⟨s.freq, fun _ => rfl, rfl⟩
  | cons b seen ih =>
    have hroom : (s.freqAt b).toNat < countMax s.cb := by
      have hb := hfit b
      rw [List.count_cons_self] at hb
      omega
    have hcount := counted_add_count_cons (s := s.setIstr (seen ++ rest)) hroom seen
    obtain ⟨f, hf, hloop⟩ := ih (s := (s.setIstr (seen ++ rest)).setFreq b (s.freqAt b + 1)) rfl
      fun c => (hcount c).le.trans (hfit c)
    exact ⟨f, fun c => (hf c).trans (hcount c), (analyzeLoop_cons_of_lt hi hroom).trans hloop⟩

end

/-! ### The two ends of `ANALYZE` -/

theorem acceptance_analyze {s : State} (ha : Accepting s) (hsrc : s.srcOk = true) :
    s.acceptance (some .analyze) = .runs .analyze := by
  rw [State.acceptance_of_accepting ha]
  simp [State.check, needs, State.flagHolds, hsrc]

section
variable {s : State} (ha : s.acceptance (some .analyze) = .runs .analyze)
include ha

/-- An accepted `ANALYZE` counts a part of the stream on which no count overflows, all counts
starting at 0, and goes on with the rest. -/
theorem exec_analyze_append {seen rest : List Byte} (hi : s.istr = seen ++ rest)
    (hfit : ∀ c, seen.count c ≤ countMax s.cb) :
    ∃ f : ByteTable Count, Counts f seen ∧ exec .analyze s =
      .next (analyzeLoop { (s.begin .analyze).zeroCounts with istr := rest, freq := f }) := by
  have hzero : ∀ c, ((s.begin .analyze).zeroCounts.freqAt c).toNat = 0 := fun c =>
    congrArg BitVec.toNat (Table.atByte_const 0 c)
  obtain ⟨f, hf, hloop⟩ := analyzeLoop_append (s := (s.begin .analyze).zeroCounts) seen hi
    fun c => by rw [hzero, Nat.zero_add]; exact hfit c
  refine ⟨f, fun c => by rw [hf, hzero, Nat.zero_add], ?_⟩
  have he : exec .analyze s = .next (analyzeBody (s.begin .analyze)) :=
    runCommand_of_runs (fun t => .next (analyzeBody t)) ha
  rw [he, analyzeBody_eq, hloop]

/-- A stream on which no count overflows is counted to its end (40_frequency.md R142). -/
theorem exec_analyze_of_fits (hfit : ∀ c, s.istr.count c ≤ countMax s.cb) :
    ∃ f : ByteTable Count, Counts f s.istr ∧ exec .analyze s =
      .next { s with phase := .done, tv := false, cv := false, istr := [], freq := f } := by
  obtain ⟨f, hf, he⟩ := exec_analyze_append ha (List.append_nil s.istr).symm hfit
  exact ⟨f, hf, he.trans (congrArg _ (analyzeLoop_nil rfl))⟩

/-- A byte whose count is full is removed and raises `CountOverflow` (40_frequency.md R143). -/
theorem exec_analyze_of_overflow {seen rest : List Byte} {b : Byte} (hi : s.istr = seen ++ b :: rest)
    (hfit : ∀ c, seen.count c ≤ countMax s.cb) (hfull : seen.count b = countMax s.cb) :
    ∃ f : ByteTable Count, Counts f seen ∧ exec .analyze s =
      .next { s with phase := .error, err := .countOverflow, tv := false, cv := false, istr := rest,
                     freq := f } := by
  obtain ⟨f, hf, he⟩ := exec_analyze_append ha hi hfit
  exact ⟨f, hf, he.trans (congrArg _ (analyzeLoop_cons_of_full rfl ((hf b).trans hfull)))⟩

end

/-- Either no byte occurs more than `m` times in a list, or there is a first that does: it stands
after a part in which no byte does and it occurs `m` times. -/
theorem count_le_or_exists_first_overflow (m : Nat) (bytes : List Byte) :
    (∀ c, bytes.count c ≤ m) ∨
      ∃ (seen : List Byte) (b : Byte) (rest : List Byte), bytes = seen ++ b :: rest ∧
        (∀ c, seen.count c ≤ m) ∧ seen.count b = m := by
  induction bytes using List.reverseRecOn with
  | nil => exact .inl fun _ => Nat.zero_le m
  | append_singleton bytes a ih =>
    rcases ih with hfit | ⟨seen, b, rest, hi, hfit, hfull⟩
    · by_cases hfull : bytes.count a = m
      · exact .inr ⟨bytes, a, [], rfl, hfit, hfull⟩
      · refine .inl fun c => ?_
        have hc := hfit c
        rw [List.count_append]
        rcases eq_or_ne c a with rfl | hne
        · rw [List.count_singleton_self]
          omega
        · rwa [List.count_singleton, if_neg (by simpa using hne.symm)]
    · exact .inr ⟨seen, b, rest ++ [a], by simp [hi], hfit, hfull⟩

/-- The two ways an accepted `ANALYZE` ends: the whole stream is counted, or `CountOverflow` is raised
at the first byte whose count is full (40_frequency.md R142, R143). -/
theorem exec_analyze_cases {s : State} (ha : s.acceptance (some .analyze) = .runs .analyze) :
    (∃ f : ByteTable Count, Counts f s.istr ∧ exec .analyze s =
      .next { s with phase := .done, tv := false, cv := false, istr := [], freq := f }) ∨
    ∃ (f : ByteTable Count) (rest : List Byte), exec .analyze s =
      .next { s with phase := .error, err := .countOverflow, tv := false, cv := false, istr := rest,
                     freq := f } := by
  rcases count_le_or_exists_first_overflow (countMax s.cb) s.istr with
    hfit | ⟨seen, b, rest, hi, hfit, hfull⟩
  · exact .inl (exec_analyze_of_fits ha hfit)
  · obtain ⟨f, -, he⟩ := exec_analyze_of_overflow ha hi hfit hfull
    exact .inr ⟨f, rest, he⟩

/-- Settles O15: the step on a count with room, and the stream on which no count overflows. -/
theorem analyzeCountsEveryByte : Obligations.AnalyzeCountsEveryByte := by
  refine ⟨fun b s h => ⟨_, analyzeByte_of_lt h, ?_, fun c hc => ?_⟩, fun s ha hsrc hfit => ?_⟩
  · rw [State.freqAt_setFreq_self, toNat_count_succ h]
  · rw [State.freqAt_setFreq, if_neg hc]
  · obtain ⟨f, hf, he⟩ := exec_analyze_of_fits (acceptance_analyze ha hsrc) hfit
    exact ⟨_, he, hf, rfl⟩

/-- Settles O16: the loop counts the first part and finds the count of the next byte full. -/
theorem analyzeOverflowStops : Obligations.AnalyzeOverflowStops := by
  intro s seen b rest ha hsrc hi hfit hfull
  obtain ⟨f, hf, he⟩ := exec_analyze_of_overflow (acceptance_analyze ha hsrc) hi hfit hfull
  exact ⟨_, he, hf, rfl⟩

/-! ### The sum of the counts -/

theorem sumCounts_of_counts {f : ByteTable Count} {bytes : List Byte} (h : Counts f bytes) :
    sumCounts f = bytes.length := by
  calc sumCounts f = (allSymbols.map (bytes.count ·)).sum :=
        congrArg List.sum (List.map_congr_left fun b _ => h b)
    _ = ∑ b ∈ allSymbols.toFinset, (bytes : Multiset Byte).count b := by
        simp only [Multiset.coe_count, List.sum_toFinset _ nodup_allSymbols]
    _ = bytes.length :=
        Multiset.sum_count_eq_card fun b _ => List.mem_toFinset.mpr (mem_allSymbols b)

/-- Settles O17: an `ANALYZE` that ends in `PHASE` 3 has counted the whole stream. -/
theorem analyzeConservesLength : Obligations.AnalyzeConservesLength := by
  intro s t ha hsrc h hdone
  rcases exec_analyze_cases (acceptance_analyze ha hsrc) with ⟨f, hf, he⟩ | ⟨f, rest, he⟩ <;>
    cases he.symm.trans h
  · exact sumCounts_of_counts hf
  · cases hdone

/-! ### What the counting commands leave as it was -/

/-- The header loop has read all its counts and completes, or the stream ended first and
`MalformedStream` is raised (45_decoder.md R251, R252). -/
theorem readHeader_cases (syms : List Byte) (s : State) :
    ∃ (f : ByteTable Count) (bs : List Byte),
      readHeader syms s = { s with phase := .done, istr := bs, freq := f } ∨
        readHeader syms s =
          { s with phase := .error, err := .malformedStream, istr := bs, freq := f } := by
  induction syms generalizing s with
  | nil => exact ⟨s.freq, s.istr, .inl rfl⟩
  | cons sym syms ih =>
    rcases readCount_cases s (countBytes s.cb) 0 0 with ⟨-, w, hw⟩ | ⟨-, hw⟩ <;> rw [readHeader, hw]
    · exact ih ((s.setIstr _).setFreq sym w)
    · exact ⟨s.freq, [], .inr rfl⟩

theorem exec_rdhdr_cases {s : State} (ha : s.acceptance (some .rdhdr) = .runs .rdhdr) :
    ∃ (f : ByteTable Count) (bs : List Byte),
      exec .rdhdr s =
        .next { s with phase := .done, tv := false, cv := false, istr := bs, freq := f } ∨
      exec .rdhdr s = .next { s with phase := .error, err := .malformedStream, tv := false,
                                     cv := false, istr := bs, freq := f } := by
  have he : exec .rdhdr s = .next (rdhdrBody (s.begin .rdhdr)) :=
    runCommand_of_runs (fun t => .next (rdhdrBody t)) ha
  obtain ⟨f, bs, hread⟩ := readHeader_cases allSymbols (s.begin .rdhdr).zeroCounts
  exact ⟨f, bs, hread.imp (fun hr => he.trans (congrArg _ hr)) fun hr => he.trans (congrArg _ hr)⟩

/-- Settles O44: a command that does not run changes at most `PHASE` and `ERR`, the ends of one that
runs are known, and the order of the streams is O47. -/
theorem frameOfCountingCommands : Obligations.FrameOfCountingCommands := by
  intro i s t hi h
  obtain ⟨hkeep, -⟩ := streamsKeepOrder
  obtain ⟨-, hsuffix⟩ := hkeep i s t h
  by_cases ha : s.acceptance (some i) = .runs i
  · rcases hi with rfl | rfl
    · rcases exec_analyze_cases ha with ⟨f, -, he⟩ | ⟨f, rest, he⟩ <;> cases he.symm.trans h
      · exact ⟨rfl, fun _ => rfl, hsuffix⟩
      · exact ⟨rfl, fun hp => absurd rfl hp, hsuffix⟩
    · obtain ⟨f, bs, he | he⟩ := exec_rdhdr_cases ha <;> cases he.symm.trans h
      · exact ⟨rfl, fun _ => rfl, hsuffix⟩
      · exact ⟨rfl, fun hp => absurd rfl hp, hsuffix⟩
  · rcases exec_not_running s ha with he | ⟨e, he⟩ <;> cases he.symm.trans h
    · exact ⟨rfl, fun _ => rfl, hsuffix⟩
    · exact ⟨rfl, fun hp => absurd rfl hp, hsuffix⟩

end Sys2Proof.Machine
end

section
/-! The priority order: `insert` splits the order by weight and keeps its invariant; the head is the
least entry. -/

namespace Sys2Proof.Machine

open Sys2Proof.Safety

variable {s : State} {m n : NodeIdx}

/-! ### The two sides of the place of `insert` -/

/-- The entries the scan of `insert(n)` passes weigh at most `W(n)`, sorted or not
(41_priority_order.md R161). -/
theorem weight_le_of_mem_take (h : m ∈ s.pq.take (s.insertPos n)) :
    (s.weight m).toNat ≤ (s.weight n).toNat := by
  rw [(s.insert_split n).1] at h
  simpa using List.mem_takeWhile_imp h

/-- The scan may stop at the first greater weight: what follows weighs no less than that entry
(41_priority_order.md R161). -/
theorem lt_weight_of_mem_drop (hs : Ordered s) (h : m ∈ s.pq.drop (s.insertPos n)) :
    (s.weight n).toNat < (s.weight m).toNat := by
  obtain ⟨hsorted, -⟩ := hs
  have hdrop := hsorted.drop (i := s.insertPos n)
  rw [(s.insert_split n).2] at h hdrop
  cases hl : s.pq.dropWhile (fun m => (s.weight m).toNat ≤ (s.weight n).toNat) with
  | nil => simp [hl] at h
  | cons x xs =>
    have hstop : (s.weight n).toNat < (s.weight x).toNat := by
      have hx := List.head?_dropWhile_not (fun m => (s.weight m).toNat ≤ (s.weight n).toNat) s.pq
      simpa [hl] using hx
    rw [hl] at h hdrop
    rcases List.mem_cons.mp h with rfl | hm
    · exact hstop
    · exact hstop.trans_le (List.rel_of_pairwise_cons hdrop hm)

/-- Settles O20: the order splits where the scan stops. -/
theorem insertPlacesByWeight : Obligations.InsertPlacesByWeight := by
  intro s n hlen hs _
  refine ⟨s.pq.take (s.insertPos n), s.pq.drop (s.insertPos n), (List.take_append_drop ..).symm,
    fun m => weight_le_of_mem_take, fun m => lt_weight_of_mem_drop hs, ?_⟩
  rcases s.insert_cases n with ⟨-, h⟩ | ⟨hfull, -⟩
  · exact h
  · exact absurd hlen hfull.not_gt

/-! ### The order invariant (10_state.md R43) -/

/-- A new entry between the lighter and the heavier ones keeps the order invariant. -/
theorem ordered_setPq_insert (hs : Ordered s) (hn : n ∉ s.pq) :
    Ordered (s.setPq (s.pq.take (s.insertPos n) ++ n :: s.pq.drop (s.insertPos n))) := by
  have ⟨hsorted, hnodup⟩ := hs
  constructor
  · rw [← List.take_append_drop (s.insertPos n) s.pq, List.pairwise_append] at hsorted
    obtain ⟨hbefore, hafter, hcross⟩ := hsorted
    refine List.pairwise_append.mpr ⟨hbefore, List.pairwise_cons.mpr ⟨?_, hafter⟩, ?_⟩
    · exact fun x hx => (lt_weight_of_mem_drop hs hx).le
    · intro x hx y hy
      rcases List.mem_cons.mp hy with rfl | hy
      · exact weight_le_of_mem_take (s := s) hx
      · exact hcross x hx y hy
  · rw [State.setPq_pq, List.nodup_middle, List.take_append_drop]
    exact List.nodup_cons.mpr ⟨hn, hnodup⟩

theorem ordered_takeMinimum (hs : Ordered s) : Ordered s.takeMinimum.2 := by
  rcases s.takeMinimum_cases with ⟨-, ht⟩ | ⟨n, rest, hpq, ht⟩ <;> rw [ht]
  · exact hs
  · obtain ⟨hsorted, hnodup⟩ := hs
    rw [hpq] at hsorted hnodup
    exact ⟨hsorted.of_cons, hnodup.of_cons⟩

theorem State.takeMinimum_pq (s : State) : s.takeMinimum.2.pq = s.pq.tail := by
  rcases s.takeMinimum_cases with ⟨hpq, ht⟩ | ⟨n, rest, hpq, ht⟩ <;> simp [hpq, ht]

/-- Settles O21: no entry behind `n` has its weight, as each is strictly heavier. -/
theorem priorityOrderKept : Obligations.PriorityOrderKept := by
  refine ⟨fun s t n hs hn h => ?_, fun s hs => ⟨ordered_takeMinimum hs, s.takeMinimum_pq⟩⟩
  have hlen := State.insert_length h
  obtain ⟨-, rfl⟩ := State.insert_ok h
  refine ⟨ordered_setPq_insert hs hn, ?_, hlen, _, _, rfl,
    fun m hm => (lt_weight_of_mem_drop hs hm).ne'⟩
  have hsub := (List.sublist_cons_self n (s.pq.drop (s.insertPos n))).append_left
    (s.pq.take (s.insertPos n))
  rwa [List.take_append_drop] at hsub

/-! ### The head -/

theorem State.takeMinimum_nil (h : s.pq = []) : s.takeMinimum = (none, s) := by
  simp [State.takeMinimum, h]

theorem State.takeMinimum_cons {rest : List NodeIdx} (h : s.pq = n :: rest) :
    s.takeMinimum = (some n, s.setPq rest) := by
  simp [State.takeMinimum, h]

/-- In an ordered `PQ` the head is an entry of least weight (41_priority_order.md R162). -/
theorem weight_head_le {rest : List NodeIdx} (hs : Ordered s) (h : s.pq = n :: rest)
    (hm : m ∈ s.pq) : (s.weight n).toNat ≤ (s.weight m).toNat := by
  obtain ⟨hsorted, -⟩ := hs
  rw [h] at hsorted hm
  rcases List.mem_cons.mp hm with rfl | hm
  · exact le_rfl
  · exact List.rel_of_pairwise_cons hsorted hm

theorem State.peekMinimum_eq_takeMinimum (s : State) : s.peekMinimum = s.takeMinimum.1 := by
  rcases s.takeMinimum_cases with ⟨hpq, ht⟩ | ⟨n, rest, hpq, ht⟩ <;>
    rw [State.peekMinimum, hpq, ht] <;> rfl

/-- Settles O22: both read the head of `PQ`, the least entry of an ordered `PQ`. -/
theorem minimumIsTheHead : Obligations.MinimumIsTheHead := by
  refine ⟨fun s => State.takeMinimum_nil, fun s n rest h => ?_, fun s => ⟨?_, ?_, ?_⟩⟩
  · exact ⟨State.takeMinimum_cons h, fun hs m => weight_head_le hs h⟩
  · exact fun h => List.head?_eq_none_iff.mpr (List.eq_nil_of_length_eq_zero h)
  · exact fun h => List.head?_eq_getElem?.trans (List.getElem?_eq_getElem h)
  · exact s.peekMinimum_eq_takeMinimum

end Sys2Proof.Machine
end

section
/-! The tree commands: how an accepted `BUILD` or `GENCODE` ends, what it writes, and what its
result depends on. -/

namespace Sys2Proof.Machine

open Sys2Proof.Safety

/-! ### Acceptance -/

theorem acceptance_build {s : State} (ha : Accepting s) :
    s.acceptance (some .build) = .runs .build := by
  rw [State.acceptance_of_accepting ha, State.check_build]

theorem acceptance_gencode {s : State} (ha : Accepting s) (htv : s.tv = true) :
    s.acceptance (some .gencode) = .runs .gencode := by
  rw [State.acceptance_of_accepting ha]
  simp [State.check, needs, State.flagHolds, htv]

theorem exec_build_of_runs {s : State} (ha : s.acceptance (some .build) = .runs .build) :
    exec .build s = ofExcept (buildBody (s.begin .build)) :=
  runCommand_of_runs (fun s1 => ofExcept (buildBody s1)) ha

theorem exec_gencode_of_runs {s : State} (ha : s.acceptance (some .gencode) = .runs .gencode) :
    exec .gencode s = ofExcept (gencodeBody (s.begin .gencode)) :=
  runCommand_of_runs (fun s1 => ofExcept (gencodeBody s1)) ha

/-- A command that does not run writes at most `PHASE` and `ERR`, and `ERR` only with `PHASE` 4
(46_control.md R283). -/
theorem frame_of_not_running {i : Instr} {s t : State} (ha : s.acceptance (some i) ≠ .runs i)
    (h : exec i s = .next t) :
    t = { s with phase := t.phase, err := t.err } ∧ (t.phase ≠ .error → t.err = s.err) := by
  rcases exec_not_running s ha with he | ⟨e, he⟩ <;> cases he.symm.trans h
  · exact ⟨rfl, fun _ => rfl⟩
  · exact ⟨rfl, fun hp => absurd rfl hp⟩

/-! ### The ends of the two commands -/

section
variable {s t : State}

theorem buildTail_cases (h : buildTail s = .ok t) :
    t = { s with phase := .done, tv := true, nodes := t.nodes, pq := t.pq, root := t.root } ∨
      t = s.raise .emptyOrUnreadableInput := by
  rw [buildTail] at h
  split at h
  · cases h
    exact .inr rfl
  · rcases hm : mergeLoop s.pq.length s with f | u <;> rw [hm] at h
    · cases h
    · obtain ⟨r, rest, -, rfl⟩ := buildFinish_ok h
      rw [mergeLoop_frame hm]
      exact .inl rfl

/-- `BUILD` completes with `TV = 1`, or raises with both flags and `ROOT` 0 (42_tree_builder.md
R181, R183). -/
theorem buildBody_cases (h : buildBody s = .ok t) :
    t = { s with phase := .done, tv := true, cv := false, nodes := t.nodes, pq := t.pq,
                 root := t.root } ∨
      t = { s with phase := .error, err := .emptyOrUnreadableInput, tv := false, cv := false,
                   nodes := t.nodes, pq := t.pq, root := 0 } := by
  rw [buildBody] at h
  rcases hl : loadSymbols allSymbols s.buildStart with f | u <;> rw [hl] at h
  · cases h
  · have hu := loadSymbols_frame hl
    rcases buildTail_cases h with ht | ht <;> rw [hu] at ht
    · exact .inl ht
    · rw [ht]
      exact .inr rfl

/-- The flag `TV` that `BUILD` leaves tells in which phase it ended. -/
theorem phase_of_buildBody (h : buildBody s = .ok t) :
    t.phase = if t.tv then .done else .error := by
  rcases buildBody_cases h with ht | ht <;> rw [ht] <;> rfl

/-- `GENCODE` completes with `CV = 1` (43_code_table.md R201). -/
theorem gencodeBody_ok (h : gencodeBody s = .ok t) :
    t = { s with phase := .done, cv := true, code := t.code } := by
  rw [gencodeBody] at h
  rcases hw : walk (Config.maxLen + 1) s.root [] s.gencodeStart with f | u <;> rw [hw] at h <;>
    cases h
  rw [walk_frame hw]
  rfl

end

/-- Settles O45: a command that does not run changes at most `PHASE` and `ERR`, and the ends of one
that runs are known. -/
theorem frameOfTreeCommands : Obligations.FrameOfTreeCommands := by
  constructor <;> intro s t h
  · by_cases ha : s.acceptance (some .build) = .runs .build
    · rw [exec_build_of_runs ha] at h
      rcases buildBody_cases (ofExcept_next h) with ht | ht <;> rw [ht]
      · exact ⟨rfl, fun _ => rfl⟩
      · exact ⟨rfl, fun hp => absurd rfl hp⟩
    · obtain ⟨ht, herr⟩ := frame_of_not_running ha h
      exact ⟨by rw [ht], herr⟩
  · by_cases ha : s.acceptance (some .gencode) = .runs .gencode
    · rw [exec_gencode_of_runs ha] at h
      rw [gencodeBody_ok (ofExcept_next h)]
      exact ⟨rfl, fun _ => rfl⟩
    · obtain ⟨ht, herr⟩ := frame_of_not_running ha h
      exact ⟨by rw [ht], herr⟩

/-! ### What their results depend on -/

/-- Settles O27: the bodies of both commands agree on what they read, the counts and the tree, and
the phase and `CV` they end with are known. -/
theorem derivedStructuresAreFunctions : Obligations.DerivedStructuresAreFunctions := by
  constructor
  · intro s u t hs hu hf h
    rw [exec_build_of_runs (acceptance_build hs)] at h
    have ht := ofExcept_next h
    have hmap : (buildBody (u.begin .build)).map treePart = .ok (treePart t) := by
      rw [buildBody_congr (s := s.begin .build) (t := u.begin .build) hf.symm, ht]
      rfl
    obtain ⟨v, hv, hpart⟩ := except_map_eq_ok.mp hmap
    refine ⟨v, ?_, hpart, ?_⟩
    · rw [exec_build_of_runs (acceptance_build hu), hv]
      rfl
    · have htv : v.tv = t.tv := congrArg (·.2.2.2) hpart
      rw [phase_of_buildBody hv, phase_of_buildBody ht, htv]
  · intro s u t hs hu hstv hutv hn hr h
    rw [exec_gencode_of_runs (acceptance_gencode hs hstv)] at h
    have ht := ofExcept_next h
    have hmap : (gencodeBody (u.begin .gencode)).map State.code = .ok t.code := by
      rw [gencodeBody_congr (s := s.begin .gencode) (t := u.begin .gencode) hn.symm hr.symm, ht]
      rfl
    obtain ⟨v, hv, hcode⟩ := except_map_eq_ok.mp hmap
    refine ⟨v, ?_, hcode, ?_⟩
    · rw [exec_gencode_of_runs (acceptance_gencode hu hutv), hv]
      rfl
    · rw [gencodeBody_ok hv, gencodeBody_ok ht]

end Sys2Proof.Machine
end

section
/-! The load loop of `BUILD`: it makes one Leaf of every symbol present, in the order of the
symbols, and queues every record it makes. -/

namespace Sys2Proof.Machine

open Sys2Proof.Safety

/-! ### The load loop -/

theorem State.insert_of_lt {s : State} (n : NodeIdx) (h : s.pq.length < 256) :
    ∃ pq, s.insert n = .ok (s.setPq pq) ∧ pq.Perm (n :: s.pq) := by
  rcases s.insert_cases n with ⟨-, he⟩ | ⟨hfull, -⟩
  · refine ⟨_, he, List.perm_middle.trans ?_⟩
    rw [List.take_append_drop]
  · exact absurd h hfull.not_gt

/-- Every record of the arena is an entry of the order, once. -/
def AllQueued (s : State) : Prop :=
  (s.pq.map Fin.val).Perm (List.range s.nnodes)

theorem AllQueued.length {s : State} (h : AllQueued s) : s.pq.length = s.nnodes := by
  simpa using h.length_eq

/-- The Leaves of the symbols of a list that are present (42_tree_builder.md R182). -/
def leavesOf (f : ByteTable Count) (bs : List Byte) : List Node :=
  (bs.filter (fun b => f.atByte b != 0)).map (leafOf f)

theorem leavesOf_allSymbols (f : ByteTable Count) :
    leavesOf f allSymbols = (present f).map (leafOf f) := rfl

theorem leavesOf_cons_absent {f : ByteTable Count} {b : Byte} (h : f.atByte b = 0)
    (bs : List Byte) : leavesOf f (b :: bs) = leavesOf f bs := by
  simp [leavesOf, h]

theorem leavesOf_cons_present {f : ByteTable Count} {b : Byte} (h : f.atByte b ≠ 0)
    (bs : List Byte) : leavesOf f (b :: bs) = leafOf f b :: leavesOf f bs := by
  rw [leavesOf, List.filter_cons_of_pos (by simpa using h), List.map_cons, leavesOf]

/-- A symbol present becomes the next record, which is queued (42_tree_builder.md R181). -/
theorem loadSymbol_present {s : State} {b : Byte} (hb : s.freqAt b ≠ 0) (hq : AllQueued s)
    (hlen : s.nnodes < 256) :
    ∃ pq, loadSymbol s b = .ok ((s.setNodes (s.nodes ++ [leafOf s.freq b])).setPq pq) ∧
      AllQueued ((s.setNodes (s.nodes ++ [leafOf s.freq b])).setPq pq) := by
  have hn : s.nodes.length < 511 := lt_trans hlen (by decide)
  obtain ⟨pq, he, hperm⟩ := (s.setNodes (s.nodes ++ [leafOf s.freq b])).insert_of_lt
    ⟨s.nodes.length, hn⟩ (hq.length.trans_lt hlen)
  refine ⟨pq, (loadSymbol_nonzero hb hn).trans he, ?_⟩
  have hvals := (hperm.map Fin.val).trans (hq.cons s.nnodes)
  simp only [AllQueued, State.nnodes, State.setPq_pq, State.setPq_nodes, State.setNodes_nodes,
    List.length_append, List.length_singleton, List.range_succ]
  exact hvals.trans (List.perm_append_singleton _ _).symm

/-- The load loop over at most 256 symbols in all appends the Leaves of those present
(42_tree_builder.md R182). -/
theorem loadSymbols_ok (bs : List Byte) {s : State} (hq : AllQueued s)
    (hlen : s.nnodes + bs.length ≤ 256) :
    ∃ t, loadSymbols bs s = .ok t ∧ AllQueued t ∧ t.nodes = s.nodes ++ leavesOf s.freq bs := by
  induction bs generalizing s with
  | nil => exact ⟨s, rfl, hq, (List.append_nil _).symm⟩
  | cons b bs ih =>
    rw [List.length_cons] at hlen
    by_cases hb : s.freqAt b = 0
    · obtain ⟨t, ht, hqt, hnodes⟩ := ih hq (by omega)
      refine ⟨t, ?_, hqt, hnodes.trans ?_⟩
      · rw [loadSymbols, loadSymbol_zero hb]
        exact ht
      · rw [leavesOf_cons_absent hb]
    · obtain ⟨pq, he, hq1⟩ := loadSymbol_present hb hq (by omega)
      obtain ⟨t, ht, hqt, hnodes⟩ := ih hq1 (by
        simp only [State.nnodes, State.setPq_nodes, State.setNodes_nodes, List.length_append,
          List.length_singleton] at hlen ⊢
        omega)
      refine ⟨t, ?_, hqt, hnodes.trans ?_⟩
      · rw [loadSymbols, he]
        exact ht
      · rw [leavesOf_cons_present hb]
        exact List.append_assoc _ [_] _

/-- Where `BUILD` stands after its load: the arena holds the Leaf of every symbol present, `pq` is
the order (42_tree_builder.md R181, R182). -/
def State.loaded (s : State) (pq : List NodeIdx) : State :=
  { s.buildStart with nodes := (present s.freq).map (leafOf s.freq), pq := pq }

theorem State.nnodes_loaded (s : State) (pq : List NodeIdx) :
    (s.loaded pq).nnodes = distinct s :=
  List.length_map _

theorem loadSymbols_buildStart (s : State) :
    ∃ pq, loadSymbols allSymbols s.buildStart = .ok (s.loaded pq) ∧ AllQueued (s.loaded pq) := by
  obtain ⟨t, ht, hq, hnodes⟩ := loadSymbols_ok allSymbols (s := s.buildStart) .nil
    (by simp [State.nnodes])
  have hloaded : t = s.loaded t.pq := by
    rw [loadSymbols_frame ht, hnodes, leavesOf_allSymbols]
    rfl
  rw [hloaded] at ht hq
  exact ⟨t.pq, ht, hq⟩

/-- An accepted `BUILD` is the rest of its pseudocode after the load. -/
theorem exec_build_of_load {s : State} (ha : Accepting s) :
    ∃ pq, AllQueued ((s.begin .build).loaded pq) ∧
      exec .build s = ofExcept (buildTail ((s.begin .build).loaded pq)) := by
  obtain ⟨pq, hl, hq⟩ := loadSymbols_buildStart (s.begin .build)
  refine ⟨pq, hq, ?_⟩
  rw [exec_build_of_runs (acceptance_build ha), buildBody, hl]

/-! ### No symbol and one symbol -/

/-- Settles O23: no symbol is present, so the load queues nothing. -/
theorem buildOnEmptyTableRaises : Obligations.BuildOnEmptyTableRaises := by
  intro s ha hzero
  have hnone : present s.freq = [] := List.filter_eq_nil_iff.mpr fun b _ => by
    simpa [State.freqAt] using hzero b
  obtain ⟨pq, hq, he⟩ := exec_build_of_load ha
  rw [AllQueued, State.nnodes_loaded, distinct, State.begin_freq, hnone] at hq
  obtain rfl : pq = [] := List.map_eq_nil_iff.mp hq.eq_nil
  rw [he, State.loaded, State.begin_freq, hnone]
  rfl

theorem present_of_unique {f : ByteTable Count} {b : Byte} (hb : f.atByte b ≠ 0)
    (hzero : ∀ c, c ≠ b → f.atByte c = 0) : present f = [b] := by
  have hiff : ∀ c, (f.atByte c != 0) = (c == b) := by
    intro c
    rcases eq_or_ne c b with rfl | hc
    · simpa using hb
    · simp [hc, hzero c hc]
  rw [present, List.filter_congr fun c _ => hiff c, List.filter_beq,
    List.count_eq_one_of_mem nodup_allSymbols (mem_allSymbols b), List.replicate_one]

/-- Settles O24: the one symbol present is the only record and the only entry, so no merge runs. -/
theorem buildOneSymbolGivesLeafRoot : Obligations.BuildOneSymbolGivesLeafRoot := by
  intro s b ha hb hzero
  have hone : present s.freq = [b] := present_of_unique hb hzero
  obtain ⟨pq, hq, he⟩ := exec_build_of_load ha
  rw [AllQueued, State.nnodes_loaded, distinct, State.begin_freq, hone] at hq
  obtain ⟨n, rfl, hn⟩ := List.map_eq_singleton_iff.mp (List.perm_singleton.mp hq)
  obtain rfl : n = 0 := Fin.ext hn
  rw [he, State.loaded, State.begin_freq, hone]
  rfl

end Sys2Proof.Machine
end

section
/-! One merge of `BUILD`: it joins the two least entries and inserts their parent. -/

namespace Sys2Proof.Machine

open Sys2Proof.Safety

/-- The Internal node a merge makes of two entries (42_tree_builder.md R184). -/
def State.parentOf (s : State) (a b : NodeIdx) : Node :=
  { kind := .internal, sym := 0, w := s.weight a + s.weight b, left := a, right := b }

/-- A merge before it inserts the parent of the two entries it took (42_tree_builder.md R181). -/
def State.joined (s : State) (a b : NodeIdx) (rest : List NodeIdx) : State :=
  (s.setPq rest).setNodes (s.nodes ++ [s.parentOf a b])

section
variable {s : State} {a b : NodeIdx} {rest : List NodeIdx}

@[simp] theorem State.joined_pq : (s.joined a b rest).pq = rest := rfl

theorem State.nodeAt_joined_of_lt {n : NodeIdx} (h : n.val < s.nnodes) :
    (s.joined a b rest).nodeAt n = s.nodeAt n :=
  State.nodeAt_append_lt (s := s.setPq rest) [s.parentOf a b] h

theorem State.weight_joined_of_lt {n : NodeIdx} (h : n.val < s.nnodes) :
    (s.joined a b rest).weight n = s.weight n :=
  congrArg Node.w (State.nodeAt_joined_of_lt h)

theorem State.nodeAt_joined_new (hn : s.nnodes < 511) :
    (s.joined a b rest).nodeAt ⟨s.nnodes, hn⟩ = s.parentOf a b := by
  simp [State.nodeAt, State.joined, State.nnodes]

theorem State.weight_joined_new (hn : s.nnodes < 511) :
    (s.joined a b rest).weight ⟨s.nnodes, hn⟩ = s.weight a + s.weight b :=
  congrArg Node.w (State.nodeAt_joined_new hn)

/-- The weight of a parent is the exact sum where that sum has 72 bits (10_state.md R36). -/
theorem State.toNat_weight_joined_new (hn : s.nnodes < 511)
    (hw : (s.weight a).toNat + (s.weight b).toNat < 2 ^ 72) :
    ((s.joined a b rest).weight ⟨s.nnodes, hn⟩).toNat =
      (s.weight a).toNat + (s.weight b).toNat :=
  (congrArg BitVec.toNat (State.weight_joined_new hn)).trans (BitVec.toNat_add_of_lt hw)

theorem mergeOnce_eq_insert (hpq : s.pq = a :: b :: rest) (hn : s.nnodes < 511) :
    mergeOnce s = (s.joined a b rest).insert ⟨s.nnodes, hn⟩ := by
  have hb : (s.setPq (b :: rest)).takeEntry = .ok (b, s.setPq rest) := State.takeEntry_cons rfl
  rw [mergeOnce, State.takeEntry_cons hpq]
  simp only [hb, State.internal]
  rw [State.alloc, dif_pos (show (s.setPq rest).nodes.length < 511 from hn)]
  rfl

/-- Taking two entries out keeps the order invariant, as a new record changes no weight in it. -/
theorem ordered_joined (hpq : s.pq = a :: b :: rest) (hs : Ordered s)
    (hlt : ∀ m ∈ rest, m.val < s.nnodes) : Ordered (s.joined a b rest) := by
  obtain ⟨hsorted, hnodup⟩ := hs
  rw [hpq] at hsorted hnodup
  refine ⟨hsorted.of_cons.of_cons.imp_of_mem fun hx hy hle => ?_, hnodup.of_cons.of_cons⟩
  rwa [State.weight_joined_of_lt (hlt _ hx), State.weight_joined_of_lt (hlt _ hy)]

end

/-- Settles O25: a merge is an `insert` of the parent into the order without the two entries, and
`insert` places it by weight (O20) and keeps the order invariant (O21). -/
theorem mergeJoinsTwoLeast : Obligations.MergeJoinsTwoLeast := by
  intro s a b rest hpq hs hlt hn hcap hw
  have hrest : ∀ m ∈ rest, m.val < s.nnodes := fun m hm => hlt m (by simp [hpq, hm])
  have hweight : ∀ m ∈ rest, (s.joined a b rest).weight m = s.weight m := fun m hm =>
    State.weight_joined_of_lt (hrest m hm)
  have hord := ordered_joined hpq hs hrest
  have hnew : (⟨s.nnodes, hn⟩ : NodeIdx) ∉ rest := fun hm => lt_irrefl _ (hrest _ hm)
  have hlen : s.pqlen = rest.length + 2 := congrArg List.length hpq
  have hroom : rest.length < 256 := by omega
  obtain ⟨before, after, hsplit, hbefore, hafter, hins⟩ :=
    insertPlacesByWeight (s.joined a b rest) ⟨s.nnodes, hn⟩ hroom hord hnew
  obtain ⟨hkept, -, hgrown, -⟩ := priorityOrderKept.1 _ _ _ hord hnew hins
  rw [State.joined_pq] at hsplit
  refine ⟨(s.joined a b rest).setPq (before ++ ⟨s.nnodes, hn⟩ :: after), ⟨s.nnodes, hn⟩, before,
    after, (mergeOnce_eq_insert hpq hn).trans hins, rfl, ?_, ?_, hsplit, rfl, ?_, fun x hx => ?_,
    fun x hx => ?_, hkept, rfl⟩
  · exact State.toNat_weight_joined_new hn hw
  · exact congrArg (fun w => s.nodes ++ [⟨.internal, 0, w, a, b⟩])
      (State.weight_joined_new (rest := rest) hn).symm
  · exact (congrArg (· + 1) hgrown).trans hlen.symm
  · rw [← hweight x (by simp [hsplit, hx])]
    exact hbefore x hx
  · rw [← hweight x (by simp [hsplit, hx])]
    exact hafter x hx

end Sys2Proof.Machine
end

section
/-! The tree `BUILD` constructs: the arena and the order are a forest, which each merge keeps, until
one tree is left. -/

namespace Sys2Proof.Machine

open Sys2Proof.Safety

/-! ### The invariant of the merge loop -/

/-- The record numbered `i` is an Internal node made of two earlier records (10_state.md R39 (a),
(c)). -/
structure IsParent (s : State) (i : Nat) : Prop where
  kind : (s.nodeNumbered i).kind = .internal
  sym : (s.nodeNumbered i).sym = 0
  left_lt : (s.nodeNumbered i).left.val < i
  right_lt : (s.nodeNumbered i).right.val < i
  weight : (s.nodeNumbered i).w.toNat =
    (s.weight (s.nodeNumbered i).left).toNat + (s.weight (s.nodeNumbered i).right).toNat

theorem IsParent.setPq {s : State} {i : Nat} (h : IsParent s i) (pq : List NodeIdx) :
    IsParent (s.setPq pq) i :=
  ⟨h.kind, h.sym, h.left_lt, h.right_lt, h.weight⟩

/-- What holds between two merges: the arena is the Leaves followed by Internal nodes, its roots are
the entries of the order, which weigh as much as all counts together. -/
structure Forest (s : State) : Prop where
  size : s.nnodes + s.pqlen = 2 * distinct s
  leaves : s.nodes.take (distinct s) = (present s.freq).map (leafOf s.freq)
  parents : ∀ i < s.nnodes, distinct s ≤ i → IsParent s i
  /-- every record is an entry of the order or the child of one Internal node, once -/
  one_place : ∀ i, edgesTo s i + (s.pq.map Fin.val).count i = if i < s.nnodes then 1 else 0
  newest : s.nnodes - 1 ∈ s.pq.map Fin.val
  total : (s.pq.map (fun n => (s.weight n).toNat)).sum = sumCounts s.freq

section
variable {s : State}

theorem distinct_le (s : State) : distinct s ≤ 256 := by
  rw [distinct, present, ← length_allSymbols]
  exact List.length_filter_le _ _

theorem sumCounts_lt (f : ByteTable Count) : sumCounts f < 2 ^ 72 := by
  have hle : ∀ x ∈ allSymbols.map (fun b => (f.atByte b).toNat), x ≤ 2 ^ 64 - 1 := by
    intro x hx
    obtain ⟨b, -, rfl⟩ := List.mem_map.mp hx
    exact Nat.le_pred_of_lt (f.atByte b).isLt
  have hsum := List.sum_le_card_nsmul _ _ hle
  rw [List.length_map, length_allSymbols, smul_eq_mul] at hsum
  exact lt_of_le_of_lt hsum (by norm_num)

theorem Forest.distinct_le_nnodes (h : Forest s) : distinct s ≤ s.nnodes := by
  have hlen := congrArg List.length h.leaves
  rw [List.length_take, List.length_map] at hlen
  exact min_eq_left_iff.mp hlen

theorem Forest.lt_of_mem (h : Forest s) {n : NodeIdx} (hn : n ∈ s.pq) : n.val < s.nnodes := by
  by_contra hge
  have hcount := h.one_place n.val
  have hpos := List.count_pos_iff.mpr (List.mem_map_of_mem (f := Fin.val) hn)
  rw [if_neg hge] at hcount
  omega

theorem Forest.pq_ne_nil (h : Forest s) : s.pq ≠ [] := fun he => by
  have hmem := h.newest
  rw [he] at hmem
  exact List.not_mem_nil hmem

theorem Forest.pq_eq_singleton (h : Forest s) (hl : ¬ s.pq.length > 1) : ∃ r, s.pq = [r] :=
  List.length_eq_one_iff.mp
    (le_antisymm (Nat.not_lt.mp hl) (List.length_pos_of_ne_nil h.pq_ne_nil))

end

/-! ### The forest after the load -/

theorem edgesTo_of_leaves {s : State} (h : ∀ r ∈ s.nodes, r.kind = .leaf) (i : Nat) :
    edgesTo s i = 0 := by
  have hnone : s.nodes.filter (fun r => r.kind == .internal) = [] :=
    List.filter_eq_nil_iff.mpr fun r hr => by simp [h r hr]
  rw [edgesTo, hnone]
  rfl

/-- The weights of the Leaves add up to all counts, as an absent symbol counts nothing. -/
theorem sum_weight_leavesOf (f : ByteTable Count) (bs : List Byte) :
    ((leavesOf f bs).map (fun r => r.w.toNat)).sum =
      (bs.map (fun b => (f.atByte b).toNat)).sum := by
  induction bs with
  | nil => rfl
  | cons b bs ih =>
    by_cases hb : f.atByte b = 0
    · rw [leavesOf_cons_absent hb, ih, List.map_cons, List.sum_cons, hb]
      exact (Nat.zero_add _).symm
    · have hw : (leafOf f b).w.toNat = (f.atByte b).toNat := by
        rw [leafOf]
        exact BitVec.toNat_setWidth_of_le (by decide)
      rw [leavesOf_cons_present hb, List.map_cons, List.sum_cons, ih, hw, List.map_cons,
        List.sum_cons]

/-- The weights of the entries are the weights of the records they number. -/
theorem sum_weight_of_allQueued {s : State} (h : AllQueued s) :
    (s.pq.map (fun n => (s.weight n).toNat)).sum = (s.nodes.map (fun r => r.w.toNat)).sum := by
  have hnodes : (List.range s.nnodes).map s.nodeNumbered = s.nodes := by
    refine List.ext_getElem (by simp [State.nnodes]) fun i hi hi' => ?_
    simp [State.nodeNumbered, hi']
  calc (s.pq.map (fun n => (s.weight n).toNat)).sum
      = ((s.pq.map Fin.val).map (fun i => (s.nodeNumbered i).w.toNat)).sum := by
        rw [List.map_map]
        rfl
    _ = ((List.range s.nnodes).map (fun i => (s.nodeNumbered i).w.toNat)).sum :=
        (h.map _).sum_eq
    _ = (s.nodes.map (fun r => r.w.toNat)).sum := by
        conv_rhs => rw [← hnodes, List.map_map]
        rfl

theorem forest_loaded {s : State} {pq : List NodeIdx} (hk : 1 ≤ distinct s)
    (hq : AllQueued (s.loaded pq)) : Forest (s.loaded pq) where
  size := by
    have hlen := hq.length
    rw [State.nnodes_loaded] at hlen ⊢
    change distinct s + pq.length = 2 * distinct s
    change pq.length = _ at hlen
    omega
  leaves := List.take_of_length_le (s.nnodes_loaded pq).le
  parents i hi hge := by
    rw [State.nnodes_loaded] at hi
    exact absurd hi (Nat.not_lt.mpr hge)
  one_place i := by
    have hleaf : ∀ r ∈ (s.loaded pq).nodes, r.kind = .leaf := by
      intro r hr
      obtain ⟨b, -, rfl⟩ := List.mem_map.mp hr
      rfl
    rw [edgesTo_of_leaves hleaf, hq.count_eq, Nat.zero_add, List.nodup_range.count]
    simp only [List.mem_range]
  newest := by
    rw [hq.mem_iff, List.mem_range, State.nnodes_loaded]
    omega
  total := (sum_weight_of_allQueued hq).trans (sum_weight_leavesOf s.freq allSymbols)

/-! ### The forest after a merge -/

section
variable {s : State} {a b : NodeIdx} {rest pq : List NodeIdx}

theorem edgesTo_joined (i : Nat) :
    edgesTo (s.joined a b rest) i =
      edgesTo s i + ((if a.val = i then 1 else 0) + (if b.val = i then 1 else 0)) := by
  simp [edgesTo, State.joined, State.parentOf]

theorem State.nodeNumbered_joined_of_lt {i : Nat} (h : i < s.nnodes) :
    (s.joined a b rest).nodeNumbered i = s.nodeNumbered i := by
  have happ : (s.nodes ++ [s.parentOf a b])[i]? = s.nodes[i]? := List.getElem?_append_left h
  exact congrArg (·.getD Node.zero) happ

theorem IsParent.joined {i : Nat} (h : IsParent s i) (hi : i < s.nnodes) :
    IsParent (s.joined a b rest) i := by
  obtain ⟨hkind, hsym, hleft, hright, hweight⟩ := h
  constructor <;> rw [State.nodeNumbered_joined_of_lt hi]
  · exact hkind
  · exact hsym
  · exact hleft
  · exact hright
  · rw [State.weight_joined_of_lt (hleft.trans hi), State.weight_joined_of_lt (hright.trans hi)]
    exact hweight

theorem isParent_joined_new (hn : s.nnodes < 511) (ha : a.val < s.nnodes) (hb : b.val < s.nnodes)
    (hw : (s.weight a).toNat + (s.weight b).toNat < 2 ^ 72) :
    IsParent (s.joined a b rest) s.nnodes := by
  have hnew : (s.joined a b rest).nodeNumbered s.nnodes = s.parentOf a b :=
    State.nodeAt_joined_new hn
  constructor <;> rw [hnew]
  · rfl
  · rfl
  · exact ha
  · exact hb
  · change (s.weight a + s.weight b).toNat =
      ((s.joined a b rest).weight a).toNat + ((s.joined a b rest).weight b).toNat
    rw [State.weight_joined_of_lt ha, State.weight_joined_of_lt hb, BitVec.toNat_add_of_lt hw]

section
variable (h : Forest s) (hpq : s.pq = a :: b :: rest) (hn : s.nnodes < 511)
  (hperm : pq.Perm (⟨s.nnodes, hn⟩ :: rest))
include h hpq

/-- A parent's weight does not wrap: all entries together weigh less than `2^72` (10_state.md
R36). -/
theorem Forest.weight_add_lt : (s.weight a).toNat + (s.weight b).toNat < 2 ^ 72 := by
  have htotal := h.total
  have hsum := sumCounts_lt s.freq
  rw [hpq, List.map_cons, List.map_cons, List.sum_cons, List.sum_cons] at htotal
  omega

include hperm

/-- The two entries taken become the children of the parent, which takes their place. -/
theorem Forest.one_place_joined (i : Nat) :
    edgesTo (s.joined a b rest) i + (pq.map Fin.val).count i =
      if i < s.nnodes + 1 then 1 else 0 := by
  have hplace := h.one_place i
  rw [hpq] at hplace
  rw [edgesTo_joined, (hperm.map Fin.val).count_eq]
  simp only [List.map_cons, List.count_cons, beq_iff_eq] at hplace ⊢
  split_ifs at hplace ⊢ <;> omega

/-- The parent weighs what the two entries did. -/
theorem Forest.total_joined :
    (pq.map (fun n => ((s.joined a b rest).weight n).toNat)).sum = sumCounts s.freq := by
  have htotal := h.total
  rw [hpq, List.map_cons, List.map_cons, List.sum_cons, List.sum_cons] at htotal
  have hrest : rest.map (fun n => ((s.joined a b rest).weight n).toNat) =
      rest.map (fun n => (s.weight n).toNat) := List.map_congr_left fun n hm => by
    rw [State.weight_joined_of_lt (h.lt_of_mem (by simp [hpq, hm]))]
  rw [(hperm.map _).sum_eq, List.map_cons, List.sum_cons, hrest,
    State.toNat_weight_joined_new hn (h.weight_add_lt hpq)]
  omega

theorem Forest.joined : Forest ((s.joined a b rest).setPq pq) := by
  have ha : a.val < s.nnodes := h.lt_of_mem (by simp [hpq])
  have hb : b.val < s.nnodes := h.lt_of_mem (by simp [hpq])
  have hnodes : ((s.joined a b rest).setPq pq).nnodes = s.nnodes + 1 := List.length_append
  constructor
  case size =>
    have hsize := h.size
    have hlen : pq.length = rest.length + 1 := hperm.length_eq
    rw [State.pqlen, hpq, List.length_cons, List.length_cons] at hsize
    rw [hnodes, State.pqlen, State.setPq_pq, hlen]
    change _ = 2 * distinct s
    omega
  case leaves => exact (List.take_append_of_le_length h.distinct_le_nnodes).trans h.leaves
  case parents =>
    intro i hi hge
    rw [hnodes] at hi
    rcases Nat.lt_succ_iff_lt_or_eq.mp hi with hi | rfl
    · exact ((h.parents i hi hge).joined hi).setPq pq
    · exact (isParent_joined_new hn ha hb (h.weight_add_lt hpq)).setPq pq
  case one_place =>
    rw [hnodes]
    exact h.one_place_joined (rest := rest) hpq hn hperm
  case newest =>
    rw [hnodes, Nat.add_sub_cancel]
    exact (hperm.map Fin.val).mem_iff.mpr List.mem_cons_self
  case total => exact h.total_joined (rest := rest) hpq hn hperm

end

end

theorem Forest.mergeOnce {s : State} (h : Forest s) (hl : s.pq.length > 1) :
    ∃ t, mergeOnce s = .ok t ∧ Forest t := by
  obtain ⟨a, b, rest, hpq⟩ : ∃ a b rest, s.pq = a :: b :: rest := by
    rcases hpq : s.pq with _ | ⟨a, _ | ⟨b, rest⟩⟩
    · simp [hpq] at hl
    · simp [hpq] at hl
    · exact ⟨a, b, rest, rfl⟩
  have hsize := h.size
  have hk := h.distinct_le_nnodes
  have hk' := distinct_le s
  have hlen : s.pqlen = rest.length + 2 := congrArg List.length hpq
  have hn : s.nnodes < 511 := by omega
  obtain ⟨pq, hins, hperm⟩ := (s.joined a b rest).insert_of_lt ⟨s.nnodes, hn⟩
    (show rest.length < 256 by omega)
  exact ⟨_, (mergeOnce_eq_insert hpq hn).trans hins, h.joined hpq hn hperm⟩

/-- The merge loop ends with one tree (42_tree_builder.md R184, R185). -/
theorem Forest.mergeLoop (k : Nat) {s : State} (h : Forest s) (hk : s.pq.length ≤ k + 1) :
    ∃ t r, mergeLoop k s = .ok t ∧ Forest t ∧ t.pq = [r] := by
  induction k generalizing s with
  | zero =>
    obtain ⟨r, hr⟩ := h.pq_eq_singleton (by omega)
    exact ⟨s, r, rfl, h, hr⟩
  | succ k ih =>
    rw [Machine.mergeLoop]
    split
    next hl =>
      obtain ⟨u, hu, hforest⟩ := h.mergeOnce hl
      have hlen := (mergeOnce_lengths hu).1
      rw [hu]
      exact ih hforest (by omega)
    next hl =>
      obtain ⟨r, hr⟩ := h.pq_eq_singleton hl
      exact ⟨s, r, rfl, h, hr⟩

/-! ### The tree -/

/-- A single tree, taken out of the order, is what 10_state.md R39 and 42_tree_builder.md R186 ask
for. -/
theorem Forest.treeShape {s : State} {r : NodeIdx} (h : Forest s) (hpq : s.pq = [r]) :
    TreeShape (((s.setPq []).setRoot r).setTv).complete := by
  have hsize : s.nnodes + 1 = 2 * distinct s := by
    have hsize := h.size
    rwa [State.pqlen, hpq, List.length_singleton] at hsize
  constructor
  case some_symbol =>
    change 1 ≤ distinct s
    omega
  case size =>
    change s.nnodes = 2 * distinct s - 1
    omega
  case root_last =>
    have hnewest := h.newest
    rw [hpq, List.map_singleton, List.mem_singleton] at hnewest
    exact hnewest.symm
  case leaves => exact h.leaves
  case internal => exact fun i hi hge => ⟨(h.parents i hi hge).kind, (h.parents i hi hge).sym⟩
  case children =>
    exact fun i hi hge => ⟨(h.parents i hi hge).left_lt, (h.parents i hi hge).right_lt⟩
  case weights => exact fun i hi hge => (h.parents i hi hge).weight
  case one_parent =>
    intro i hi
    change i < s.nnodes at hi
    have hplace := h.one_place i
    rw [hpq, List.map_singleton, List.count_singleton, if_pos hi] at hplace
    change edgesTo s i = if i = r.val then 0 else 1
    simp only [beq_iff_eq] at hplace
    split_ifs at hplace ⊢ <;> omega
  case total =>
    have htotal := h.total
    rw [hpq, List.map_singleton, List.sum_singleton] at htotal
    exact htotal

/-- Settles O26: the load makes a forest, the merges leave one tree of it. -/
theorem buildCompletesWithTree : Obligations.BuildCompletesWithTree := by
  intro s ha hk
  obtain ⟨pq, hq, he⟩ := exec_build_of_load ha
  have hload : Forest ((s.begin .build).loaded pq) := forest_loaded hk hq
  obtain ⟨u, r, hm, hforest, hpq⟩ := hload.mergeLoop _ (Nat.le_succ _)
  have hshape := hforest.treeShape hpq
  refine ⟨_, ?_, hshape, ?_, ?_⟩
  · rw [he, buildTail, if_neg hload.pq_ne_nil, hm]
    exact congrArg ofExcept (buildFinish_cons hpq)
  · have hle := distinct_le (((u.setPq []).setRoot r).setTv).complete
    rw [hshape.size]
    omega
  · rw [mergeLoop_frame hm]
    rfl

end Sys2Proof.Machine
end

section
/-! The tree of 10_state.md R39 by its paths: a Leaf ends every path through it, every node has
exactly one path from the root, and the Leaves are those of the symbols present. -/

namespace Sys2Proof.Safety

open Sys2Proof.Machine

/-! ### Paths -/

section
variable {s : State} {p q r : List Bool} {n m : NodeIdx} {c : Bool}

/-- The last edge of a path leaves an Internal node. -/
theorem PathTo.of_concat (h : PathTo s (p ++ [c]) m) :
    ∃ n, PathTo s p n ∧ s.isLeaf n = false ∧ m = s.child n c := by
  generalize hq : p ++ [c] = q at h
  cases h with
  | root => simp at hq
  | edge d h hn =>
    obtain ⟨rfl, hcd⟩ := List.append_inj' hq rfl
    obtain rfl : c = d := List.singleton_inj.mp hcd
    exact ⟨_, h, hn, rfl⟩

theorem PathTo.of_nil (h : PathTo s [] m) : m = s.root := by
  generalize hq : [] = q at h
  cases h with
  | root => rfl
  | edge d h hn => simp at hq

/-- A path leads to one node. -/
theorem PathTo.end_unique (hn : PathTo s p n) (hm : PathTo s p m) : n = m := by
  induction hn generalizing m with
  | root => exact hm.of_nil.symm
  | edge c _ _ ih =>
    obtain ⟨n', hn', -, rfl⟩ := hm.of_concat
    rw [ih hn']

/-- A path that goes on leaves an Internal node. -/
theorem PathTo.of_append_cons (h : PathTo s (p ++ c :: r) m) :
    ∃ n, PathTo s p n ∧ s.isLeaf n = false := by
  induction r using List.reverseRecOn generalizing m with
  | nil =>
    obtain ⟨n, hn, hi, -⟩ := h.of_concat
    exact ⟨n, hn, hi⟩
  | append_singleton r d ih =>
    rw [← List.cons_append, ← List.append_assoc] at h
    obtain ⟨_, h, -, -⟩ := h.of_concat
    exact ih h

/-- No path goes on through a Leaf (43_code_table.md R205). -/
theorem PathTo.eq_of_prefix (hn : PathTo s p n) (hl : s.isLeaf n = true) (hm : PathTo s q m)
    (hpq : p <+: q) : p = q := by
  obtain ⟨_ | ⟨c, r⟩, rfl⟩ := hpq
  · exact (List.append_nil p).symm
  · obtain ⟨n', hn', hi⟩ := hm.of_append_cons
    rw [hn.end_unique hn', hi] at hl
    cases hl

/-- A Leaf is the only one below itself. -/
theorem LeafPath.of_prefix_leaf {b : Byte} (hq : LeafPath s q b) (hn : PathTo s p n)
    (hl : s.isLeaf n = true) (hpq : p <+: q) : q = p ∧ (s.nodeAt n).sym = b := by
  obtain ⟨m, hm, -, hb⟩ := hq
  obtain rfl := hn.eq_of_prefix hl hm hpq
  exact ⟨rfl, hn.end_unique hm ▸ hb⟩

/-- A Leaf below an Internal node is below one of its children. -/
theorem LeafPath.of_prefix_internal {b : Byte} (hq : LeafPath s q b) (hn : PathTo s p n)
    (hi : s.isLeaf n = false) (hpq : p <+: q) : ∃ c, p ++ [c] <+: q := by
  obtain ⟨m, hm, hl, -⟩ := hq
  obtain ⟨_ | ⟨c, r⟩, rfl⟩ := hpq
  · rw [List.append_nil] at hm
    rw [← hn.end_unique hm, hi] at hl
    cases hl
  · exact ⟨c, r, by simp⟩

end

/-! ### The records of a tree -/

section
variable {s : State} (h : TreeShape s)
include h

theorem TreeShape.distinct_le_nnodes : distinct s ≤ s.nnodes := by
  have hsize := h.size
  have hk := h.some_symbol
  omega

theorem TreeShape.root_lt : s.root.val < s.nnodes := by
  have hroot := h.root_last
  have hle := h.distinct_le_nnodes
  have hk := h.some_symbol
  omega

/-- The records below `k` are the Leaves of the symbols present, in their order. -/
theorem TreeShape.nodeNumbered_of_lt {i : Nat} (hi : i < distinct s) :
    s.nodeNumbered i = leafOf s.freq ((present s.freq)[i]'hi) := by
  have hget : (s.nodes.take (distinct s))[i]? = ((present s.freq).map (leafOf s.freq))[i]? :=
    congrArg (·[i]?) h.leaves
  rw [List.getElem?_take_of_lt hi, List.getElem?_map,
    List.getElem?_eq_getElem (l := present s.freq) hi] at hget
  rw [State.nodeNumbered, hget]
  rfl

theorem TreeShape.isLeaf_iff {n : NodeIdx} (hn : n.val < s.nnodes) :
    s.isLeaf n = true ↔ n.val < distinct s := by
  constructor
  · intro hl
    by_contra hge
    obtain ⟨hkind, -⟩ := h.internal n.val hn (Nat.not_lt.mp hge)
    have hi : s.isLeaf n = false := congrArg (· == NodeKind.leaf) hkind
    rw [hi] at hl
    cases hl
  · exact fun hlt => congrArg (fun r : Node => r.kind == .leaf) (h.nodeNumbered_of_lt hlt)

theorem TreeShape.distinct_le_of_internal {n : NodeIdx} (hn : n.val < s.nnodes)
    (hi : s.isLeaf n = false) : distinct s ≤ n.val := by
  by_contra hlt
  rw [(h.isLeaf_iff hn).mpr (Nat.not_le.mp hlt)] at hi
  cases hi

theorem TreeShape.child_lt {n : NodeIdx} (hn : n.val < s.nnodes) (hi : s.isLeaf n = false)
    (c : Bool) : (s.child n c).val < n.val := by
  obtain ⟨hleft, hright⟩ := h.children n.val hn (h.distinct_le_of_internal hn hi)
  cases c
  · exact hleft
  · exact hright

theorem TreeShape.child_ne_root {n : NodeIdx} (hn : n.val < s.nnodes) (hi : s.isLeaf n = false)
    (c : Bool) : s.child n c ≠ s.root := by
  intro he
  have hlt := h.child_lt hn hi c
  have hroot := h.root_last
  rw [he] at hlt
  omega

/-- A path leads down in the numbering, and goes on only above the Leaves. -/
theorem TreeShape.path_bounds {p : List Bool} {n : NodeIdx} (hp : PathTo s p n) :
    n.val + p.length < s.nnodes ∧ p.length + 1 ≤ distinct s := by
  induction hp with
  | root => exact ⟨h.root_lt, h.some_symbol⟩
  | @edge p n c _ hi ih =>
    obtain ⟨hlt, -⟩ := ih
    have hn : n.val < s.nnodes := by omega
    have hge := h.distinct_le_of_internal hn hi
    have hchild := h.child_lt hn hi c
    have hsize := h.size
    rw [List.length_append, List.length_singleton]
    omega

theorem TreeShape.path_lt {p : List Bool} {n : NodeIdx} (hp : PathTo s p n) : n.val < s.nnodes :=
  (Nat.le_add_right _ _).trans_lt (h.path_bounds hp).1

theorem TreeShape.path_length_lt {p : List Bool} {n : NodeIdx} (hp : PathTo s p n) :
    p.length < distinct s :=
  (h.path_bounds hp).2

theorem TreeShape.leafPath_length_lt {p : List Bool} {b : Byte} (hp : LeafPath s p b) :
    p.length < distinct s := by
  obtain ⟨n, hn, -, -⟩ := hp
  exact h.path_length_lt hn

end

/-! ### The edges of a tree -/

/-- How many edges lead from record `j` to record `i`. -/
def edgesFrom (s : State) (i j : Nat) : Nat :=
  if (s.nodeNumbered j).kind == .internal then
    (if (s.nodeNumbered j).left.val = i then 1 else 0) +
      (if (s.nodeNumbered j).right.val = i then 1 else 0)
  else 0

theorem map_nodeNumbered_range (s : State) :
    (List.range s.nnodes).map s.nodeNumbered = s.nodes := by
  refine List.ext_getElem (by simp [State.nnodes]) fun i hi hi' => ?_
  simp [State.nodeNumbered, hi']

theorem sum_map_filter {α : Type} (p : α → Bool) (f : α → Nat) (l : List α) :
    ((l.filter p).map f).sum = (l.map (fun a => if p a then f a else 0)).sum := by
  induction l with
  | nil => rfl
  | cons a l ih =>
    rw [List.filter_cons, List.map_cons, List.sum_cons, ← ih]
    split <;> simp

/-- The edges to a record are those from each record of the arena. -/
theorem edgesTo_eq_sum (s : State) (i : Nat) :
    edgesTo s i = ∑ j ∈ Finset.range s.nnodes, edgesFrom s i j := by
  rw [edgesTo, sum_map_filter, ← map_nodeNumbered_range s, List.map_map]
  rfl

section
variable {s : State} {n m : NodeIdx}

theorem edgesFrom_of_internal (hi : s.isLeaf n = false) (i : Nat) :
    edgesFrom s i n.val = (if (s.child n false).val = i then 1 else 0) +
      (if (s.child n true).val = i then 1 else 0) := by
  refine if_pos ?_
  change (s.nodeAt n).kind == .internal
  rw [State.isLeaf] at hi
  cases hk : (s.nodeAt n).kind
  · simp [hk] at hi
  · rfl

theorem edgesFrom_child_pos (hi : s.isLeaf n = false) (c : Bool) :
    1 ≤ edgesFrom s (s.child n c).val n.val := by
  rw [edgesFrom_of_internal hi]
  cases c <;> simp

/-- An edge leaves an Internal node for one of its children. -/
theorem child_of_edgesFrom (he : edgesFrom s m.val n.val ≠ 0) :
    s.isLeaf n = false ∧ ∃ c, s.child n c = m := by
  have hi : s.isLeaf n = false := by
    by_contra hl
    have hk : (s.nodeNumbered n.val).kind = .leaf := beq_iff_eq.mp (eq_true_of_ne_false hl)
    exact he (if_neg (by rw [hk]; decide))
  rw [edgesFrom_of_internal hi] at he
  refine ⟨hi, ?_⟩
  by_cases hleft : (s.child n false).val = m.val
  · exact ⟨false, Fin.ext hleft⟩
  · refine ⟨true, Fin.ext ?_⟩
    by_contra hright
    simp [hleft, hright] at he

variable (h : TreeShape s)
include h

theorem TreeShape.edgesTo_le_one {i : Nat} (hi : i < s.nnodes) : edgesTo s i ≤ 1 := by
  rw [h.one_parent i hi]
  split <;> omega

/-- A node is the child of one Internal node, by one edge (10_state.md R39 (c)). -/
theorem TreeShape.parent_unique {c d : Bool} (hn : n.val < s.nnodes) (hm : m.val < s.nnodes)
    (hin : s.isLeaf n = false) (him : s.isLeaf m = false) (he : s.child n c = s.child m d) :
    n = m ∧ c = d := by
  have hle := h.edgesTo_le_one ((h.child_lt hn hin c).trans hn)
  rw [edgesTo_eq_sum] at hle
  have hnm : n = m := by
    by_contra hne
    have hpair : edgesFrom s (s.child n c).val n.val + edgesFrom s (s.child n c).val m.val ≤
        ∑ j ∈ Finset.range s.nnodes, edgesFrom s (s.child n c).val j :=
      Finset.add_le_sum (fun _ _ => Nat.zero_le _) (Finset.mem_range.mpr hn)
        (Finset.mem_range.mpr hm) (Fin.val_ne_of_ne hne)
    have hposn := edgesFrom_child_pos hin c
    have hposm := he ▸ edgesFrom_child_pos him d
    omega
  subst hnm
  refine ⟨rfl, ?_⟩
  by_contra hcd
  have hone := Finset.single_le_sum (f := edgesFrom s (s.child n c).val)
    (fun _ _ => Nat.zero_le _) (Finset.mem_range.mpr hn)
  have htwo : edgesFrom s (s.child n c).val n.val = 2 := by
    rw [edgesFrom_of_internal hin]
    obtain rfl := Bool.eq_not.mpr (Ne.symm hcd)
    cases c <;> simp [he]
  omega

/-- Every node but the root is the child of an Internal node. -/
theorem TreeShape.exists_parent (hm : m.val < s.nnodes) (hroot : m ≠ s.root) :
    ∃ n c, n.val < s.nnodes ∧ s.isLeaf n = false ∧ s.child n c = m := by
  have hone := h.one_parent m.val hm
  rw [if_neg (Fin.val_ne_of_ne hroot), edgesTo_eq_sum] at hone
  obtain ⟨j, hj, hne⟩ := Finset.exists_ne_zero_of_sum_ne_zero (hone ▸ one_ne_zero)
  have hj := Finset.mem_range.mp hj
  have hcap : j < 511 := by
    have hlast := h.root_last
    have := s.root.isLt
    omega
  obtain ⟨hi, c, hc⟩ := child_of_edgesFrom (n := ⟨j, hcap⟩) hne
  exact ⟨_, c, hj, hi, hc⟩

/-- One path leads from the root to a node. -/
theorem TreeShape.path_unique {p q : List Bool} (hp : PathTo s p n) (hq : PathTo s q n) :
    p = q := by
  induction hp generalizing q with
  | root =>
    generalize hm : s.root = m at hq
    cases hq with
    | root => rfl
    | edge d hq hi => exact absurd hm.symm (h.child_ne_root (h.path_lt hq) hi d)
  | @edge p n c hp hi ih =>
    generalize hm : s.child n c = m at hq
    cases hq with
    | root => exact absurd hm (h.child_ne_root (h.path_lt hp) hi c)
    | edge d hq hi' =>
      obtain ⟨rfl, rfl⟩ := h.parent_unique (h.path_lt hp) (h.path_lt hq) hi hi' hm
      rw [ih hq]

/-- Every record of the arena is reached from the root. -/
theorem TreeShape.exists_path (hn : n.val < s.nnodes) : ∃ p, PathTo s p n := by
  induction n using WellFoundedGT.induction with
  | ind n ih =>
    by_cases hroot : n = s.root
    · exact ⟨[], hroot ▸ .root⟩
    · obtain ⟨m, c, hm, hi, rfl⟩ := h.exists_parent hn hroot
      obtain ⟨p, hp⟩ := ih m (h.child_lt hm hi c) hm
      exact ⟨p ++ [c], hp.edge c hi⟩

/-! ### The symbols of a tree -/

/-- The symbols with a Leaf are those with a count (43_code_table.md R202). -/
theorem TreeShape.exists_leafPath_iff (b : Byte) : (∃ p, LeafPath s p b) ↔ s.freqAt b ≠ 0 := by
  have hpresent : b ∈ present s.freq ↔ s.freqAt b ≠ 0 := by
    rw [present, List.mem_filter, bne_iff_ne]
    exact and_iff_right (mem_allSymbols b)
  rw [← hpresent]
  constructor
  · rintro ⟨p, n, hp, hl, rfl⟩
    have hlt := (h.isLeaf_iff (h.path_lt hp)).mp hl
    have hsym : (s.nodeAt n).sym = (present s.freq)[n.val] :=
      congrArg Node.sym (h.nodeNumbered_of_lt hlt)
    exact hsym ▸ List.getElem_mem hlt
  · intro hb
    obtain ⟨i, hi, rfl⟩ := List.getElem_of_mem hb
    have hin : i < s.nnodes := lt_of_lt_of_le hi h.distinct_le_nnodes
    have hcap : i < 511 := by
      have hk := distinct_le s
      rw [distinct] at hk
      omega
    obtain ⟨p, hp⟩ := h.exists_path (n := ⟨i, hcap⟩) hin
    exact ⟨p, _, hp, (h.isLeaf_iff hin).mpr hi, congrArg Node.sym (h.nodeNumbered_of_lt hi)⟩

/-- A symbol has one path. -/
theorem TreeShape.leafPath_unique {p q : List Bool} {b : Byte} (hp : LeafPath s p b)
    (hq : LeafPath s q b) : p = q := by
  obtain ⟨n, hn, hln, rfl⟩ := hp
  obtain ⟨m, hm, hlm, hsym⟩ := hq
  have hltn := (h.isLeaf_iff (h.path_lt hn)).mp hln
  have hltm := (h.isLeaf_iff (h.path_lt hm)).mp hlm
  have hnodup : (present s.freq).Nodup := nodup_allSymbols.filter _
  have hget : (present s.freq)[m.val] = (present s.freq)[n.val] := by
    calc (present s.freq)[m.val] = (s.nodeAt m).sym :=
          (congrArg Node.sym (h.nodeNumbered_of_lt hltm)).symm
      _ = (s.nodeAt n).sym := hsym
      _ = (present s.freq)[n.val] := congrArg Node.sym (h.nodeNumbered_of_lt hltn)
  obtain rfl : m = n := Fin.ext ((hnodup.getElem_inj_iff).mp hget)
  exact h.path_unique hn hm

end

end Sys2Proof.Safety
end

section
/-! The code table of `GENCODE`: the walk of a tree writes the path to each Leaf as the code of its
symbol, no code begins another, and the lengths of the codes meet Kraft's equation. -/

namespace Sys2Proof.Machine

open Sys2Proof.Safety

/-! ### The record of a path -/

/-- The last bit of a path is bit 0 of its number (43_code_table.md R201). -/
theorem testBit_pathNumber (p : List Bool) (j : Nat) :
    (pathNumber p).testBit j = p.reverse.getD j false := by
  induction p using List.reverseRecOn generalizing j with
  | nil => simp [pathNumber]
  | append_singleton p c ih =>
    rw [pathNumber_append, ← Nat.bit_val, List.reverse_append, List.reverse_singleton]
    cases j with
    | zero => simp
    | succ j => rw [Nat.testBit_bit_succ, ih]; rfl

theorem len_codeOfPath {p : List Bool} (hp : p.length ≤ 255) :
    (codeOfPath p).len.toNat = p.length := by
  rw [codeOfPath, BitVec.toNat_ofNat]
  exact Nat.mod_eq_of_lt (Nat.lt_succ_of_le hp)

/-- The record of a path holds that path (10_state.md R45). -/
theorem codeBits_codeOfPath {p : List Bool} (hp : p.length ≤ 255) :
    codeBits (codeOfPath p) = p := by
  have hlen := len_codeOfPath hp
  refine List.ext_getElem (by rw [codeBits_length, hlen]) fun i hi hi' => ?_
  have hj : p.length - 1 - i < 255 := by omega
  have hrev : p.length - 1 - (p.length - 1 - i) = i := by omega
  simp only [codeBits, List.getElem_map, List.getElem_range, hlen]
  simp only [codeOfPath, BitVec.getLsbD_ofNat, hj, decide_true, Bool.true_and, testBit_pathNumber]
  rw [List.getD_eq_getElem _ _ (by rw [List.length_reverse]; omega), List.getElem_reverse]
  simp only [hrev]

/-! ### The walk -/

section
variable {s u t : State} {k : Nat} {n : NodeIdx} {p : List Bool}

/-- The walk of an Internal node is that of its left child and then that of its right one
(43_code_table.md R201). -/
theorem walk_internal_ok (hi : u.isLeaf n = false) (h : walk (k + 1) n p u = .ok t) :
    ∃ u1, walk k (u.child n false) (p ++ [false]) u = .ok u1 ∧
      walk k (u.child n true) (p ++ [true]) u1 = .ok t := by
  rcases h1 : walk k (u.nodeAt n).left (p ++ [false]) u with f | u1
  · rw [walk, if_neg (by simp [hi]), h1] at h
    cases h
  · rw [walk_internal p hi h1] at h
    exact ⟨u1, h1, h⟩

theorem walk_nodes (h : walk k n p u = .ok t) : t.nodes = u.nodes := by
  rw [walk_frame h]

/-- The walk completes, as the numbers of the Internal nodes fall along a path (43_code_table.md
R201). -/
theorem exists_walk (h : TreeShape s) (hu : u.nodes = s.nodes) (hn : n.val < s.nnodes)
    (hfuel : n.val + 1 ≤ k + distinct s) (p : List Bool) : ∃ t, walk (k + 1) n p u = .ok t := by
  induction k generalizing n p u with
  | zero =>
    have hl : s.isLeaf n = true := (h.isLeaf_iff hn).mpr (by omega)
    exact ⟨_, walk_leaf p ((State.isLeaf_congr hu n).trans hl)⟩
  | succ k ih =>
    cases hl : s.isLeaf n with
    | true => exact ⟨_, walk_leaf p ((State.isLeaf_congr hu n).trans hl)⟩
    | false =>
      have hleft := h.child_lt hn hl false
      have hright := h.child_lt hn hl true
      obtain ⟨u1, h1⟩ := ih hu (hleft.trans hn) (by omega) (p ++ [false])
      obtain ⟨t, h2⟩ := ih ((walk_nodes h1).trans hu) (hright.trans hn) (by omega) (p ++ [true])
      rw [← State.child_congr hu] at h1 h2
      exact ⟨t, (walk_internal p ((State.isLeaf_congr hu n).trans hl) h1).trans h2⟩

/-- What the walk from a node makes of the code of a symbol: the path to its Leaf if that is below
the node, else what it was (43_code_table.md R201). -/
theorem codeAt_walk (hu : u.nodes = s.nodes) (hp : PathTo s p n) (h : walk k n p u = .ok t)
    (b : Byte) :
    (∃ q, p <+: q ∧ LeafPath s q b ∧ t.codeAt b = codeOfPath q) ∨
      ((∀ q, p <+: q → ¬ LeafPath s q b) ∧ t.codeAt b = u.codeAt b) := by
  induction k generalizing n p u t with
  | zero => cases h
  | succ k ih =>
    have hleaf : u.isLeaf n = s.isLeaf n := State.isLeaf_congr hu n
    cases hl : s.isLeaf n with
    | true =>
      rw [walk_leaf p (hleaf.trans hl), Except.ok.injEq] at h
      rw [← h, State.visitLeaf, State.codeAt_setCode, State.nodeAt_congr hu n]
      split
      next hb => exact .inl ⟨p, List.prefix_rfl, ⟨n, hp, hl, hb.symm⟩, rfl⟩
      next hb => exact .inr ⟨fun q hpq hq => hb (hq.of_prefix_leaf hp hl hpq).2.symm, rfl⟩
    | false =>
      obtain ⟨u1, h1, h2⟩ := walk_internal_ok (hleaf.trans hl) h
      rw [State.child_congr hu] at h1 h2
      rcases ih ((walk_nodes h1).trans hu) (hp.edge true hl) h2 with ⟨q, hpq, hq⟩ | ⟨hright, ht⟩
      · exact .inl ⟨q, (List.prefix_append p _).trans hpq, hq⟩
      rcases ih hu (hp.edge false hl) h1 with ⟨q, hpq, hq, hcode⟩ | ⟨hleft, h1⟩
      · exact .inl ⟨q, (List.prefix_append p _).trans hpq, hq, ht.trans hcode⟩
      refine .inr ⟨fun q hpq hq => ?_, ht.trans h1⟩
      obtain ⟨c, hc⟩ := hq.of_prefix_internal hp hl hpq
      cases c
      · exact hleft q hc hq
      · exact hright q hc hq

end

/-! ### `GENCODE` -/

/-- The code table of `t` is that of the tree of `s`: the code of a Leaf's symbol is the path to it,
no other symbol has one (43_code_table.md R202). -/
structure PathCodes (s t : State) : Prop where
  path : ∀ p b, LeafPath s p b → t.codeAt b = codeOfPath p
  absent : ∀ b, (¬ ∃ p, LeafPath s p b) → t.codeAt b = CodeRec.none

theorem exec_gencode_of_walk {s t : State} (ha : Accepting s) (htv : s.tv = true)
    (h : walk (Config.maxLen + 1) s.root [] (s.begin .gencode).gencodeStart = .ok t) :
    exec .gencode s = .next { s with phase := .done, cv := true, code := t.code } := by
  have hbody : gencodeBody (s.begin .gencode) = .ok t.gencodeFinish := by
    rw [gencodeBody, State.begin_root, h]
  rw [exec_gencode_of_runs (acceptance_gencode ha htv), hbody, gencodeBody_ok hbody]
  rfl

theorem codeAt_gencodeStart (s : State) (b : Byte) : s.gencodeStart.codeAt b = CodeRec.none :=
  Table.atByte_const CodeRec.none b

/-- On a tree `GENCODE` completes with the codes of that tree (43_code_table.md R201). -/
theorem exec_gencode_of_tree {s : State} (ha : Accepting s) (htv : s.tv = true) (h : TreeShape s) :
    ∃ t, exec .gencode s = .next t ∧ t = { s with phase := .done, cv := true, code := t.code } ∧
      PathCodes s t := by
  have hk := distinct_le s
  have hsize := h.size
  have hroot := h.root_last
  obtain ⟨t, hw⟩ := exists_walk (u := (s.begin .gencode).gencodeStart) h rfl h.root_lt
    (k := Config.maxLen) (by rw [Config.maxLen]; omega) []
  have hcodes := codeAt_walk (s := s) (u := (s.begin .gencode).gencodeStart) rfl .root hw
  refine ⟨_, exec_gencode_of_walk ha htv hw, rfl, fun p b hp => ?_, fun b hb => ?_⟩
  · rcases hcodes b with ⟨q, -, hq, hcode⟩ | ⟨hnone, -⟩
    · rw [h.leafPath_unique hp hq]
      exact hcode
    · exact absurd hp (hnone p List.nil_prefix)
  · rcases hcodes b with ⟨q, -, hq, -⟩ | ⟨-, hcode⟩
    · exact absurd ⟨q, hq⟩ hb
    · exact hcode.trans (codeAt_gencodeStart _ b)

/-- What `GENCODE` answers on a tree has the codes of that tree. -/
theorem pathCodes_of_exec {s t : State} (ha : Accepting s) (htv : s.tv = true) (h : TreeShape s)
    (he : exec .gencode s = .next t) : PathCodes s t := by
  obtain ⟨t', he', -, hc⟩ := exec_gencode_of_tree ha htv h
  cases he.symm.trans he'
  exact hc

section
variable {s t : State} (hc : PathCodes s t)
include hc

theorem PathCodes.valid_iff (b : Byte) : (t.codeAt b).valid = true ↔ ∃ p, LeafPath s p b := by
  constructor
  · intro hv
    by_contra hb
    rw [hc.absent b hb] at hv
    cases hv
  · rintro ⟨p, hp⟩
    rw [hc.path p b hp]
    rfl

theorem PathCodes.eq_none {b : Byte} (hv : (t.codeAt b).valid = false) :
    t.codeAt b = CodeRec.none := by
  refine hc.absent b fun hp => ?_
  rw [(hc.valid_iff b).mpr hp] at hv
  cases hv

end

section
variable {s t : State} (h : TreeShape s) (hc : PathCodes s t)
include h hc

theorem PathCodes.codeBits_eq {p : List Bool} {b : Byte} (hp : LeafPath s p b) :
    codeBits (t.codeAt b) = p := by
  have hlt := h.leafPath_length_lt hp
  have hk := distinct_le s
  rw [hc.path p b hp]
  exact codeBits_codeOfPath (by omega)

theorem PathCodes.len_eq {p : List Bool} {b : Byte} (hp : LeafPath s p b) :
    (t.codeAt b).len.toNat = p.length := by
  rw [← codeBits_length, hc.codeBits_eq h hp]

/-- A valid record holds the path to a Leaf of its symbol (43_code_table.md R202). -/
theorem PathCodes.leafPath_codeBits {b : Byte} (hv : (t.codeAt b).valid = true) :
    LeafPath s (codeBits (t.codeAt b)) b := by
  obtain ⟨p, hp⟩ := (hc.valid_iff b).mp hv
  rwa [hc.codeBits_eq h hp]

/-- Codes are shorter than the number of symbols (43_code_table.md R206). -/
theorem PathCodes.len_lt {b : Byte} (hv : (t.codeAt b).valid = true) :
    (t.codeAt b).len.toNat < distinct s := by
  rw [← codeBits_length]
  exact h.leafPath_length_lt (hc.leafPath_codeBits h hv)

/-- With two symbols or more the root is no Leaf, so no code is empty (43_code_table.md R205). -/
theorem PathCodes.len_pos (hk : 2 ≤ distinct s) {b : Byte} (hv : (t.codeAt b).valid = true) :
    1 ≤ (t.codeAt b).len.toNat := by
  obtain ⟨n, hn, hl, -⟩ := hc.leafPath_codeBits h hv
  rw [← codeBits_length]
  refine List.length_pos_of_ne_nil fun hnil => ?_
  rw [hnil] at hn
  rw [hn.of_nil, h.isLeaf_iff h.root_lt, h.root_last, h.size] at hl
  omega

/-- A code that begins another leads to the same Leaf (43_code_table.md R205). -/
theorem PathCodes.eq_of_prefix {a b : Byte} (ha : (t.codeAt a).valid = true)
    (hb : (t.codeAt b).valid = true) (hpre : codeBits (t.codeAt a) <+: codeBits (t.codeAt b)) :
    a = b := by
  obtain ⟨n, hn, hl, hsym⟩ := hc.leafPath_codeBits h ha
  exact hsym.symm.trans ((hc.leafPath_codeBits h hb).of_prefix_leaf hn hl hpre).2

end

/-- Settles O28: the walk of a tree leaves the paths as codes, and the symbols of the Leaves are
those with a count. -/
theorem gencodeAssignsPaths : Obligations.GencodeAssignsPaths := by
  intro s ha htv h
  obtain ⟨t, he, ht, hc⟩ := exec_gencode_of_tree ha htv h
  refine ⟨t, he, ht, fun p b hp => ?_, fun b => ⟨?_, hc.valid_iff b, hc.eq_none⟩⟩
  · exact ⟨hc.path p b hp, hc.codeBits_eq h hp, hc.len_eq h hp⟩
  · exact (hc.valid_iff b).trans (h.exists_leafPath_iff b)

/-- Settles O29: the walk of a Leaf root is one write of the empty code to a table of absent ones. -/
theorem gencodeOnLeafRootGivesEmptyCode : Obligations.GencodeOnLeafRootGivesEmptyCode := by
  intro s ha htv hl
  refine ⟨_, exec_gencode_of_walk ha htv (walk_leaf [] hl), rfl, ?_, fun b hb => ?_⟩
  · exact State.codeAt_setCode_self _ _ _
  · calc _ = (s.begin .gencode).gencodeStart.codeAt b :=
          (State.codeAt_setCode _ _ _ _).trans (if_neg hb)
      _ = CodeRec.none := codeAt_gencodeStart _ b

/-- Settles O30: codes are paths to Leaves, which no other path goes through. -/
theorem codesArePrefixFree : Obligations.CodesArePrefixFree := by
  intro s t ha htv h he
  have hc := pathCodes_of_exec ha htv h he
  refine ⟨fun a b hne hva hvb hpre => ?_, fun hk b hv => ?_, fun hk b hv => ?_⟩
  · exact hne (hc.eq_of_prefix h hva hvb hpre)
  · exact hc.len_pos h hk hv
  · have hlt := hc.len_lt h hv
    rw [← codeBits_length, hk] at hlt
    exact List.length_eq_zero_iff.mp (Nat.lt_one_iff.mp hlt)

/-! ### Kraft's equation -/

/-- What the code of a symbol adds to the Kraft sum, times `2^255`, if it goes on from `p`. -/
def kraftTerm (t : State) (p : List Bool) (b : Byte) : Nat :=
  if (t.codeAt b).valid = true ∧ p <+: codeBits (t.codeAt b) then
    2 ^ (255 - (t.codeAt b).len.toNat)
  else 0

theorem kraftTerm_nil (t : State) (b : Byte) :
    kraftTerm t [] b =
      if (t.codeAt b).valid then 2 ^ (255 - (t.codeAt b).len.toNat) else 0 := by
  simp only [kraftTerm, List.nil_prefix, and_true]

section
variable {s t : State} (h : TreeShape s) (hc : PathCodes s t) {p : List Bool} {n : NodeIdx}
  (hp : PathTo s p n)
include h hc hp

/-- The symbol of a Leaf has the Leaf's whole share of the sum. -/
theorem kraftTerm_leaf (hl : s.isLeaf n = true) :
    kraftTerm t p (s.nodeAt n).sym = 2 ^ (255 - p.length) := by
  have hown : LeafPath s p (s.nodeAt n).sym := ⟨n, hp, hl, rfl⟩
  have hbits := hc.codeBits_eq h hown
  rw [kraftTerm, if_pos ⟨(hc.valid_iff _).mpr ⟨p, hown⟩, hbits.symm ▸ List.prefix_rfl⟩,
    hc.len_eq h hown]

/-- Below a Leaf no other symbol adds to the sum. -/
theorem kraftTerm_leaf_of_ne (hl : s.isLeaf n = true) {b : Byte} (hb : b ≠ (s.nodeAt n).sym) :
    kraftTerm t p b = 0 := by
  refine if_neg fun ⟨hv, hpre⟩ => hb ?_
  exact ((hc.leafPath_codeBits h hv).of_prefix_leaf hp hl hpre).2.symm

/-- A code below an Internal node is below one of its children. -/
theorem kraftTerm_internal (hi : s.isLeaf n = false) (b : Byte) :
    kraftTerm t p b = kraftTerm t (p ++ [false]) b + kraftTerm t (p ++ [true]) b := by
  by_cases hpre : (t.codeAt b).valid = true ∧ p <+: codeBits (t.codeAt b)
  · obtain ⟨hv, hpre⟩ := hpre
    obtain ⟨c, r, hr⟩ :=
      (hc.leafPath_codeBits h hv).of_prefix_internal hp hi hpre
    simp only [kraftTerm, hv, ← hr]
    cases c <;> simp
  · have hnot : ∀ c, ¬((t.codeAt b).valid = true ∧ p ++ [c] <+: codeBits (t.codeAt b)) :=
      fun c ⟨hv, hpre'⟩ => hpre ⟨hv, (List.prefix_append p _).trans hpre'⟩
    rw [kraftTerm, kraftTerm, kraftTerm, if_neg hpre, if_neg (hnot false), if_neg (hnot true)]

/-- The codes below a node fill its share of the Kraft sum: those below an Internal node are those
below its two children, each of which has half of it (43_code_table.md R206). -/
theorem sum_kraftTerm : (allSymbols.map (kraftTerm t p)).sum = 2 ^ (255 - p.length) := by
  induction n using WellFoundedLT.induction generalizing p with
  | ind n ih =>
    cases hl : s.isLeaf n with
    | true =>
      rw [List.sum_map_eq_nsmul_single (s.nodeAt n).sym _
          fun b hb _ => kraftTerm_leaf_of_ne h hc hp hl hb,
        List.count_eq_one_of_mem nodup_allSymbols (mem_allSymbols _), one_smul,
        kraftTerm_leaf h hc hp hl]
    | false =>
      have hchild := h.child_lt (h.path_lt hp) hl
      have hlt := h.path_length_lt (hp.edge false hl)
      have hk := distinct_le s
      rw [List.length_append, List.length_singleton] at hlt
      have hexp : 255 - p.length = 255 - (p.length + 1) + 1 := by omega
      rw [List.map_congr_left fun b _ => kraftTerm_internal h hc hp hl b, List.sum_map_add,
        ih _ (hchild false) (hp.edge false hl), ih _ (hchild true) (hp.edge true hl),
        List.length_append, List.length_append, List.length_singleton, List.length_singleton,
        hexp, pow_succ]
      omega

end

/-- Settles O31: the length of a path is bounded by the number of Internal nodes, and the codes below
the root, which are all codes, fill the whole Kraft sum. -/
theorem codeLengthsMeetKraft : Obligations.CodeLengthsMeetKraft := by
  intro s t ha htv h he
  have hc := pathCodes_of_exec ha htv h he
  refine ⟨fun hk b hv => ⟨hc.len_pos h hk hv, ?_⟩, fun hk b hv => ?_, fun _ => ?_⟩
  · exact Nat.le_pred_of_lt (hc.len_lt h hv)
  · have hlt := hc.len_lt h hv
    omega
  · exact Eq.trans (congrArg List.sum (List.map_congr_left fun b _ => (kraftTerm_nil t b).symm))
      (sum_kraftTerm h hc .root)

end Sys2Proof.Machine
end

section
/-! The header write: `WRHDR` appends the bytes of the counts in ascending order of the symbols, and
`RDHDR` reads the same counts from them. -/

namespace Sys2Proof.Machine

open Sys2Proof.Safety

/-! ### The bytes of the header -/

/-- Element `k*n + j` of the concatenation of lists of `n` elements is element `j` of list `k`. -/
theorem getElem?_flatMap_of_length {α β : Type} {f : α → List β} {n : Nat}
    (hf : ∀ a, (f a).length = n) (l : List α) {k j : Nat} (hk : k < l.length) (hj : j < n) :
    (l.flatMap f)[k * n + j]? = (f l[k])[j]? := by
  induction l generalizing k with
  | nil => cases hk
  | cons a l ih =>
    rw [List.flatMap_cons]
    cases k with
    | zero => simpa using List.getElem?_append_left (by rwa [hf])
    | succ k =>
      have hpos : (k + 1) * n + j = (f a).length + (k * n + j) := by rw [hf, Nat.succ_mul]; omega
      rw [hpos, List.getElem?_append_right (Nat.le_add_right _ _), Nat.add_sub_cancel_left]
      exact ih (Nat.lt_of_succ_lt_succ hk)

section
variable (s : State)

theorem State.countField_length (b : Byte) : (s.countField b).length = countBytes s.cb := by
  simp [State.countField]

theorem State.headerBytes_length : s.headerBytes.length = headerLen s.cb := by
  simp only [State.headerBytes, List.length_flatMap, State.countField_length, List.map_const',
    List.sum_replicate, length_allSymbols, headerLen, smul_eq_mul]

/-- Byte `b*CB + j` of the header is byte `j` of `FREQ[b]` (30_encoding.md R107). -/
theorem State.headerBytes_getElem? (b : Byte) {j : Nat} (hj : j < countBytes s.cb) :
    s.headerBytes[b.toNat * countBytes s.cb + j]? = some (countByte (s.freqAt b) j) := by
  have hb : b.toNat < allSymbols.length := by rw [length_allSymbols]; exact b.isLt
  rw [State.headerBytes, getElem?_flatMap_of_length s.countField_length _ hb hj,
    getElem_allSymbols b hb]
  simp [State.countField, hj]

end

/-! ### `WRHDR` -/

theorem acceptance_wrhdr {s : State} (ha : Accepting s) (hdst : s.dstOk = true) :
    s.acceptance (some .wrhdr) = .runs .wrhdr := by
  rw [State.acceptance_of_accepting ha]
  simp [State.check, needs, State.flagHolds, hdst]

/-- An accepted `WRHDR` appends the header and completes (44_encoder.md R221). -/
theorem exec_wrhdr_of_runs {s : State} (ha : s.acceptance (some .wrhdr) = .runs .wrhdr) :
    exec .wrhdr s = .next { s with phase := .done, ostr := s.ostr ++ s.headerBytes } := by
  have he : exec .wrhdr s = .next (wrhdrBody (s.begin .wrhdr)) :=
    runCommand_of_runs (fun t => .next (wrhdrBody t)) ha
  rw [he, wrhdrBody, State.dstWriteAll_eq]
  rfl

/-- Settles O32: the bytes appended are `headerBytes`, one field of `CB` bytes per symbol. -/
theorem wrhdrAppendsHeader : Obligations.WrhdrAppendsHeader := fun s ha hdst =>
  ⟨s.headerBytes, exec_wrhdr_of_runs (acceptance_wrhdr ha hdst), s.headerBytes_length,
    fun b _ hj => s.headerBytes_getElem? b hj⟩

/-! ### The round trip -/

theorem toNat_countByte (v : Count) (j : Nat) :
    (countByte v j).toNat = v.toNat / 2 ^ (8 * j) % 2 ^ 8 := by
  rw [countByte, BitVec.extractLsb'_toNat, Nat.shiftRight_eq_div_pow]

/-- The first `n` bytes of a count have the value of its low `8*n` bits (20_memory.md R72). -/
theorem countValue_of_countByte {h : List Byte} {start n : Nat} {v : Count}
    (hb : ∀ j < n, h[start + j]? = some (countByte v j)) :
    countValue h start n = v.toNat % 2 ^ (8 * n) := by
  induction n with
  | zero => simp [Nat.mod_one]
  | succ n ih =>
    have hlast : countValue h start (n + 1) =
        countValue h start n + (h.getD (start + n) 0).toNat * 2 ^ (8 * n) := by
      simp [countValue, List.range_succ]
    rw [hlast, ih fun j hj => hb j (Nat.lt_succ_of_lt hj), List.getD_eq_getElem?_getD,
      hb n (Nat.lt_succ_self n), Option.getD_some, toNat_countByte, Nat.mul_succ, Nat.pow_add,
      Nat.mod_mul, Nat.mul_comm (_ % _)]

/-- The count of a symbol is read back from the header it was written to (44_encoder.md R222). -/
theorem countValue_headerBytes {s : State} (hfit : CountsFit s) (body : List Byte) (b : Byte) :
    countValue (s.headerBytes ++ body) (b.toNat * countBytes s.cb) (countBytes s.cb) =
      (s.freqAt b).toNat := by
  have hmax : (s.freqAt b).toNat < 2 ^ (8 * countBytes s.cb) :=
    Nat.lt_of_le_pred (Nat.two_pow_pos _) (hfit b)
  rw [countValue_of_countByte (v := s.freqAt b) fun j hj => ?_, Nat.mod_eq_of_lt hmax]
  have hread := s.headerBytes_getElem? b hj
  rwa [List.getElem?_append_left (List.getElem?_eq_some_iff.mp hread).1]

/-- Settles O33: `RDHDR` finds a whole header, and each count it reads there is the one written. -/
theorem headerRoundTrip : Obligations.HeaderRoundTrip := by
  intro s ha hdst hfit
  refine ⟨s.headerBytes, s.headerBytes_length, fun b _ hj => s.headerBytes_getElem? b hj,
    exec_wrhdr_of_runs (acceptance_wrhdr ha hdst), fun u body hu hcb hsrc hi => ?_⟩
  have hlen : s.headerBytes.length = headerLen u.cb := by rw [hcb, s.headerBytes_length]
  obtain ⟨t, he, hread, ht⟩ := rdhdrReadsCounts u hu hsrc (by simp [hi, hlen])
  have hfreq : t.freq = s.freq := Table.ext_atByte _ _ fun b => BitVec.eq_of_toNat_eq <|
    (hread b).trans (by rw [hi, hcb, countValue_headerBytes hfit]; rfl)
  rw [he, ht, hfreq, hi, List.drop_left' hlen]

end Sys2Proof.Machine
end

section
/-! The encoder's accumulator: `putbit` fills it from the top, and the bits put so far stand in
`OSTR`, `ACC` and `ACCN` as the full bytes and the part of a byte they make. -/

namespace Sys2Proof.Machine

open Sys2Proof.Safety

/-! ### One bit -/

theorem accn_succ {s : State} (h : s.accn.val < 7) : (s.accn + 1).val = s.accn.val + 1 :=
  Fin.val_add_one_of_lt' (by omega)

/-- A bit put at the top of the unused bits leaves the others 0 (10_state.md R48). -/
theorem accClean_putbit {s : State} (h : AccClean s) (c : Bool) : AccClean (s.putbit c) := by
  rcases s.putbit_cases c with ⟨_, he⟩ | ⟨hn, he⟩ <;> rw [he]
  · exact fun k _ => by simp
  · intro k hk
    rw [accn_succ hn] at hk
    rw [getLsbD_setBit _ _ _ _ (by omega), if_neg (by omega)]
    exact h k (by omega)

/-- Settles O34: the two cases of `putbit` write bit `7 - ACCN` alone. -/
theorem putbitFillsFromTheTop : Obligations.PutbitFillsFromTheTop := by
  intro s c h
  refine ⟨accClean_putbit h c, fun hn => ?_, fun hn => ?_⟩ <;>
    rcases s.putbit_cases c with ⟨h7, he⟩ | ⟨hlt, he⟩
  · exact absurd (congrArg Fin.val h7) (Nat.ne_of_lt hn)
  · rw [he]
    refine ⟨setBit s.acc (7 - s.accn.val) c, rfl, accn_succ hn, ?_, fun k hk => ?_⟩ <;>
      rw [getLsbD_setBit _ _ _ _ (by omega)]
    · exact if_pos rfl
    · exact if_neg hk
  · refine ⟨setBit s.acc 0 c, he, ?_, fun k hk => ?_⟩ <;>
      rw [getLsbD_setBit _ _ _ _ (by omega)]
    · exact if_pos rfl
    · exact if_neg hk
  · omega

/-! ### The number of bits -/

/-- Bits put one after the other fill `ACC` and write each full byte to `OSTR` (44_encoder.md R225,
R226). -/
theorem State.putbits_advance (s : State) (cs : List Bool) :
    (s.putbits cs).ostr.length = s.ostr.length + (s.accn.val + cs.length) / 8 ∧
      (s.putbits cs).accn.val = (s.accn.val + cs.length) % 8 ∧ s.ostr <+: (s.putbits cs).ostr := by
  induction cs generalizing s with
  | nil =>
    have hlt := s.accn.isLt
    simp only [State.putbits_nil, List.length_nil]
    exact ⟨by omega, by omega, List.prefix_rfl⟩
  | cons c cs ih =>
    obtain ⟨hlen, haccn, hpre⟩ := ih (s.putbit c)
    rw [State.putbits_cons, hlen, haccn, List.length_cons]
    rcases s.putbit_cases c with ⟨h7, he⟩ | ⟨hlt, he⟩ <;> rw [he] at hpre ⊢
    · have h7 : s.accn.val = 7 := congrArg Fin.val h7
      simp only [List.length_append, List.length_singleton, Fin.val_zero]
      exact ⟨by omega, by omega, (List.prefix_append _ _).trans hpre⟩
    · simp only [accn_succ hlt]
      exact ⟨by omega, by omega, hpre⟩

theorem encodeByte_of_valid {s : State} {b : Byte} (h : (s.codeAt b).valid = true) :
    encodeByte b s = (none, s.putbits (codeBits (s.codeAt b))) :=
  if_pos h

theorem encodeByte_of_invalid {s : State} {b : Byte} (h : (s.codeAt b).valid = false) :
    encodeByte b s = (some .noCodeForSymbol, s) :=
  if_neg (Bool.not_eq_true _ ▸ h)

/-- Settles O35: a code of length `LEN` is `LEN` bits put. -/
theorem encodeByteAdvancesByLength : Obligations.EncodeByteAdvancesByLength := by
  intro s b h
  obtain ⟨hlen, haccn, hpre⟩ := s.putbits_advance (codeBits (s.codeAt b))
  rw [codeBits_length] at hlen haccn
  exact ⟨_, encodeByte_of_valid h, hlen, haccn, hpre, s.putbits_frame _⟩

/-! ### The bytes of a bit sequence -/

section
variable (bits : List Bool) {i : Nat}

theorem getLsbD_byteOfBits {k : Nat} (hk : k < 8) :
    (byteOfBits bits i).getLsbD k = bits.getD (8 * i + (7 - k)) false := by
  rw [byteOfBits, BitVec.getLsbD_ofNat, testBit_pathNumber,
    List.getD_eq_getElem _ _ (by simpa using hk), List.getElem_reverse]
  simp [hk]

/-- A full byte does not change when more bits follow. -/
theorem byteOfBits_append (cs : List Bool) (hi : 8 * (i + 1) ≤ bits.length) :
    byteOfBits (bits ++ cs) i = byteOfBits bits i := by
  refine BitVec.eq_of_getLsbD_eq fun k hk => ?_
  rw [getLsbD_byteOfBits _ hk, getLsbD_byteOfBits _ hk, List.getD_append _ _ _ _ (by omega)]

/-- The next bit goes to the highest free position of the last byte (20_memory.md R73). -/
theorem byteOfBits_concat (c : Bool) :
    byteOfBits (bits ++ [c]) (bits.length / 8) =
      setBit (byteOfBits bits (bits.length / 8)) (7 - bits.length % 8) c := by
  refine BitVec.eq_of_getLsbD_eq fun k hk => ?_
  rw [getLsbD_setBit _ _ _ _ (by omega), getLsbD_byteOfBits _ hk, getLsbD_byteOfBits _ hk]
  rcases Nat.lt_trichotomy (8 * (bits.length / 8) + (7 - k)) bits.length with h | h | h
  · rw [if_neg (by omega), List.getD_append _ _ _ _ h]
  · rw [if_pos (by omega), h, List.getD_append_right _ _ _ _ (Nat.le_refl _), Nat.sub_self]
    rfl
  · rw [if_neg (by omega), List.getD_eq_default _ _ (Nat.le_of_lt h),
      List.getD_eq_default _ _ (by rw [List.length_append, List.length_singleton]; omega)]

/-- A byte none of whose bits is there is 0. -/
theorem byteOfBits_of_length_le (h : bits.length ≤ 8 * i) : byteOfBits bits i = 0 := by
  refine BitVec.eq_of_getLsbD_eq fun k hk => ?_
  rw [getLsbD_byteOfBits _ hk, List.getD_eq_default _ _ (by omega)]
  exact BitVec.getLsbD_zero.symm

/-- The first `n` bytes do not change when more bits follow, if they are full. -/
theorem map_byteOfBits_append (cs : List Bool) {n : Nat} (hn : 8 * n ≤ bits.length) :
    (List.range n).map (byteOfBits (bits ++ cs)) = (List.range n).map (byteOfBits bits) :=
  List.map_congr_left fun i hi => byteOfBits_append bits cs <| by
    have := List.mem_range.mp hi
    omega

/-- A bit that ends a byte makes one more full byte. -/
theorem fullBytes_concat_of_full (c : Bool) (h : bits.length % 8 = 7) :
    fullBytes (bits ++ [c]) =
      fullBytes bits ++ [setBit (byteOfBits bits (bits.length / 8)) 0 c] := by
  have hlen : (bits ++ [c]).length / 8 = bits.length / 8 + 1 := by
    rw [List.length_append, List.length_singleton]
    omega
  rw [fullBytes, hlen, List.range_succ, List.map_append,
    map_byteOfBits_append bits _ (Nat.mul_div_le _ _), List.map_singleton, byteOfBits_concat, h]
  rfl

theorem fullBytes_concat_of_part (c : Bool) (h : bits.length % 8 < 7) :
    fullBytes (bits ++ [c]) = fullBytes bits := by
  have hlen : (bits ++ [c]).length / 8 = bits.length / 8 := by
    rw [List.length_append, List.length_singleton]
    omega
  rw [fullBytes, hlen, map_byteOfBits_append bits _ (Nat.mul_div_le _ _), fullBytes]

/-- The body is the full bytes and, if bits are left, one more byte (30_encoding.md R109). -/
theorem bodyBytes_eq :
    bodyBytes bits = fullBytes bits ++
      if bits.length % 8 = 0 then [] else [byteOfBits bits (bits.length / 8)] := by
  rw [bodyBytes, fullBytes]
  split
  · rw [show (bits.length + 7) / 8 = bits.length / 8 by omega, List.append_nil]
  · rw [show (bits.length + 7) / 8 = bits.length / 8 + 1 by omega, List.range_succ,
      List.map_append, List.map_singleton]

theorem bodyBytes_length : (bodyBytes bits).length = (bits.length + 7) / 8 := by
  simp [bodyBytes]

end

/-! ### The state after some bits -/

/-- Where `ENCODE` stands that started in `s`, with an empty accumulator, and has put `bits`; `rest`
is what is left of the source. -/
def State.encoded (s : State) (bits : List Bool) (rest : List Byte) : State :=
  { s with
    acc := byteOfBits bits (bits.length / 8)
    accn := Fin.ofNat 8 bits.length
    istr := rest
    ostr := s.ostr ++ fullBytes bits }

section
variable (s : State) (bits : List Bool) (rest : List Byte)

theorem State.encoded_nil : s.encoded [] s.istr = s.clearAcc := by
  simp [State.encoded, State.clearAcc, fullBytes, byteOfBits_of_length_le]

@[simp] theorem State.encoded_accn : (s.encoded bits rest).accn.val = bits.length % 8 := rfl

/-- One bit more: into the free part of the accumulator, or out with the byte it completes
(44_encoder.md R225). -/
theorem State.encoded_putbit (c : Bool) :
    (s.encoded bits rest).putbit c = s.encoded (bits ++ [c]) rest := by
  have hlen : (bits ++ [c]).length = bits.length + 1 := by simp
  have haccn : Fin.ofNat 8 (bits ++ [c]).length = Fin.ofNat 8 bits.length + 1 :=
    Fin.ext (by simp [Fin.val_add])
  rcases (s.encoded bits rest).putbit_cases c with ⟨h7, he⟩ | ⟨hlt, he⟩ <;> rw [he]
  · have hmod : bits.length % 8 = 7 := congrArg Fin.val h7
    have hacc : byteOfBits (bits ++ [c]) ((bits ++ [c]).length / 8) = 0 :=
      byteOfBits_of_length_le _ (by omega)
    have hzero : Fin.ofNat 8 (bits ++ [c]).length = 0 := haccn.trans (congrArg (· + 1) h7)
    simp only [State.encoded, hacc, hzero, fullBytes_concat_of_full bits c hmod, List.append_assoc]
  · rw [State.encoded_accn] at hlt
    have hdiv : (bits ++ [c]).length / 8 = bits.length / 8 := by omega
    simp only [State.encoded, haccn, hdiv, byteOfBits_concat, fullBytes_concat_of_part bits c hlt]
    rfl

theorem State.encoded_putbits (cs : List Bool) :
    (s.encoded bits rest).putbits cs = s.encoded (bits ++ cs) rest := by
  induction cs generalizing bits with
  | nil => rw [State.putbits_nil, List.append_nil]
  | cons c cs ih =>
    rw [State.putbits_cons, State.encoded_putbit, ih, List.append_assoc, List.singleton_append]

/-- The flush completes the body: the byte it writes is padded with zeros (44_encoder.md R227). -/
theorem State.encoded_flush :
    (s.encoded bits rest).encodeFlush =
      { s with phase := .done, acc := 0, accn := 0, istr := rest,
               ostr := s.ostr ++ bodyBytes bits } := by
  rw [State.encodeFlush, bodyBytes_eq, State.encoded_accn]
  by_cases h : bits.length % 8 = 0
  · have hacc : byteOfBits bits (bits.length / 8) = 0 := byteOfBits_of_length_le _ (by omega)
    have haccn : Fin.ofNat 8 bits.length = 0 := Fin.ext h
    rw [if_neg (by omega), if_pos h, State.encoded, hacc, haccn, List.append_nil]
    rfl
  · rw [if_pos (by omega), if_neg h, ← List.append_assoc]
    rfl

end

end Sys2Proof.Machine
end

section
/-! The encoder's loop: `ENCODE` ends at the end of the source, with its body written, or at the first
byte without a code. -/

namespace Sys2Proof.Machine

open Sys2Proof.Safety

/-! ### The loop of `ENCODE` -/

/-- The byte loop of `ENCODE` with its flush (44_encoder.md R224). -/
def encodeLoop (s : State) : State :=
  streamLoop encodeByte State.encodeFlush s.istr.length s

theorem encodeBody_eq (s : State) : encodeBody s = encodeLoop (s.encoded [] s.istr) := by
  rw [State.encoded_nil]
  rfl

section
variable {s : State} (bits : List Bool) {b : Byte} (rest : List Byte)

theorem encodeLoop_nil : encodeLoop (s.encoded bits []) = (s.encoded bits []).encodeFlush :=
  streamLoop_nil _ _ rfl

theorem encodeLoop_cons_of_valid (h : (s.codeAt b).valid = true) :
    encodeLoop (s.encoded bits (b :: rest)) =
      encodeLoop (s.encoded (bits ++ codeBits (s.codeAt b)) rest) := by
  have hb : encodeByte b ((s.encoded bits (b :: rest)).setIstr rest) =
      (none, s.encoded (bits ++ codeBits (s.codeAt b)) rest) :=
    (encodeByte_of_valid (s := s.encoded bits rest) h).trans
      (congrArg _ (s.encoded_putbits bits rest _))
  rw [encodeLoop, streamLoop_cons _ _ rfl, hb]
  rfl

theorem encodeLoop_cons_of_invalid (h : (s.codeAt b).valid = false) :
    encodeLoop (s.encoded bits (b :: rest)) = (s.encoded bits rest).raise .noCodeForSymbol := by
  have hb : encodeByte b ((s.encoded bits (b :: rest)).setIstr rest) =
      (some .noCodeForSymbol, s.encoded bits rest) := encodeByte_of_invalid h
  rw [encodeLoop, streamLoop_cons _ _ rfl, hb]

/-- Bytes that all have codes are read and their codes put (44_encoder.md R224). -/
theorem encodeLoop_append (seen : List Byte) (h : ∀ c ∈ seen, (s.codeAt c).valid = true) :
    encodeLoop (s.encoded bits (seen ++ rest)) =
      encodeLoop (s.encoded (bits ++ codedBits s seen) rest) := by
  induction seen generalizing bits with
  | nil => rw [codedBits, List.flatMap_nil, List.append_nil, List.nil_append]
  | cons c seen ih =>
    obtain ⟨hc, hseen⟩ := List.forall_mem_cons.mp h
    rw [List.cons_append, encodeLoop_cons_of_valid bits _ hc, ih _ hseen, List.append_assoc]
    rfl

end

/-! ### The two ends of `ENCODE` -/

theorem acceptance_encode {s : State} (ha : Accepting s) (hcv : s.cv = true) (hsrc : s.srcOk = true)
    (hdst : s.dstOk = true) : s.acceptance (some .encode) = .runs .encode := by
  rw [State.acceptance_of_accepting ha]
  simp [State.check, needs, State.flagHolds, hcv, hsrc, hdst]

section
variable {s : State} (ha : s.acceptance (some .encode) = .runs .encode)
include ha

theorem exec_encode_append {seen rest : List Byte} (hi : s.istr = seen ++ rest)
    (h : ∀ c ∈ seen, (s.codeAt c).valid = true) :
    exec .encode s = .next (encodeLoop ((s.begin .encode).encoded (codedBits s seen) rest)) := by
  have he : exec .encode s = .next (encodeBody (s.begin .encode)) :=
    runCommand_of_runs (fun t => .next (encodeBody t)) ha
  rw [he, encodeBody_eq, State.begin_istr, hi,
    encodeLoop_append (s := s.begin .encode) [] rest seen h]
  rfl

/-- A source whose bytes all have codes is encoded to its end (44_encoder.md R230). -/
theorem exec_encode_of_coded (h : ∀ c ∈ s.istr, (s.codeAt c).valid = true) :
    exec .encode s = .next { s with
      phase := .done, acc := 0, accn := 0, istr := [],
      ostr := s.ostr ++ bodyBytes (codedBits s s.istr) } := by
  rw [exec_encode_append ha (List.append_nil _).symm h, encodeLoop_nil, State.encoded_flush]
  rfl

/-- The first byte without a code is removed and raises `NoCodeForSymbol` (44_encoder.md R229). -/
theorem exec_encode_of_uncoded {seen rest : List Byte} {b : Byte} (hi : s.istr = seen ++ b :: rest)
    (h : ∀ c ∈ seen, (s.codeAt c).valid = true) (hb : (s.codeAt b).valid = false) :
    exec .encode s = .next
      { (s.encoded (codedBits s seen) rest) with phase := .error, err := .noCodeForSymbol } := by
  rw [exec_encode_append ha hi h, encodeLoop_cons_of_invalid (s := s.begin .encode) _ _ hb]
  rfl

end

/-- Settles O36: the loop puts all codes, and the flush completes their body. -/
theorem encodeAppendsBody : Obligations.EncodeAppendsBody := by
  intro s ha hcv hsrc hdst h
  refine ⟨exec_encode_of_coded (acceptance_encode ha hcv hsrc hdst) h, ?_⟩
  simp only [bodyBytes_length, codedBits, List.length_flatMap, codeBits_length]

/-- Settles O37: empty codes make no bit, and no bits make an empty body. -/
theorem encodeEmptyCodesWritesNothing : Obligations.EncodeEmptyCodesWritesNothing := by
  intro s ha hcv hsrc hdst h
  have hbits : codedBits s s.istr = [] := List.flatMap_eq_nil_iff.mpr fun b hb =>
    List.eq_nil_of_length_eq_zero (by rw [codeBits_length, (h b hb).2]; rfl)
  rw [exec_encode_of_coded (acceptance_encode ha hcv hsrc hdst) fun b hb => (h b hb).1, hbits,
    show bodyBytes [] = [] from rfl, List.append_nil]

/-- Settles O38: the loop puts the codes of the first part and stops at the byte after it. -/
theorem encodeStopsAtByteWithoutCode : Obligations.EncodeStopsAtByteWithoutCode :=
  fun _ _ _ _ ha hcv hsrc hdst hi h hb =>
    ⟨_, exec_encode_of_uncoded (acceptance_encode ha hcv hsrc hdst) hi h hb, rfl, rfl⟩

end Sys2Proof.Machine
end

section
/-! The commands that write `OSTR`: how an accepted `ENCODE` or `DECODE` ends, and what each leaves as
it was. -/

namespace Sys2Proof.Machine

open Sys2Proof.Safety

/-! ### The ends of `ENCODE` -/

/-- `ENCODE` completes, or raises `NoCodeForSymbol` after a part of the source that has codes
(44_encoder.md R229, R230). -/
theorem exec_encode_cases {s : State} (ha : s.acceptance (some .encode) = .runs .encode) :
    (∃ os, exec .encode s =
      .next { s with phase := .done, acc := 0, accn := 0, istr := [], ostr := os }) ∨
    ∃ bits rest, exec .encode s =
      .next { (s.encoded bits rest) with phase := .error, err := .noCodeForSymbol } := by
  cases hf : s.istr.find? (fun c => !(s.codeAt c).valid) with
  | none =>
    exact .inl ⟨_, exec_encode_of_coded ha fun c hc => by simpa using List.find?_eq_none.mp hf c hc⟩
  | some b =>
    obtain ⟨hb, seen, rest, hi, hseen⟩ := List.find?_eq_some_iff_append.mp hf
    exact .inr ⟨_, rest, exec_encode_of_uncoded ha hi (fun c hc => by simpa using hseen c hc)
      (by simpa using hb)⟩

/-! ### The ends of `DECODE` -/

theorem State.walkBit_setIstr (s : State) (bs : List Byte) (c : Bool) :
    (s.setIstr bs).walkBit c = (s.walkBit c).setIstr bs := by
  rw [State.walkBit, State.walkBit, apply_ite (fun t : State => t.setIstr bs)]
  rfl

theorem State.walkBits_setIstr (s : State) (bs : List Byte) (cs : List Bool) :
    (s.setIstr bs).walkBits cs = (s.walkBits cs).setIstr bs := by
  induction cs generalizing s with
  | nil => rfl
  | cons c cs ih => rw [State.walkBits_cons, State.walkBit_setIstr, ih, State.walkBits_cons]

/-- The loop of `DECODE` walks every bit of the source and consumes it (45_decoder.md R256). -/
theorem decodeLoop_eq (s : State) :
    streamLoop decodeByte State.complete s.istr.length s =
      ((s.walkBits (bodyBits s.istr)).setIstr []).complete := by
  induction hi : s.istr generalizing s with
  | nil =>
    rw [← hi, streamLoop_nil _ _ hi, hi]
    have hs : s = s.setIstr [] := by rw [← hi, State.setIstr_self]
    exact congrArg State.complete hs
  | cons b rest ih =>
    have hbits : bodyBits (b :: rest) = byteBits b ++ bodyBits rest := List.flatMap_cons
    rw [← hi, streamLoop_cons _ _ hi, hi, hbits, State.walkBits_append]
    refine (ih ((s.setIstr rest).walkBits (byteBits b)) (State.walkBits_istr _ _)).trans ?_
    rw [State.walkBits_setIstr, State.walkBits_setIstr, State.setIstr_setIstr]

/-- `DECODE` walks the whole source, or finds a Leaf root, where it completes on an empty source and
raises `MalformedStream` on any other (45_decoder.md R256, R258). -/
theorem decodeBody_cases (s : State) :
    (∃ n os, decodeBody s = { s with phase := .done, cur := n, istr := [], ostr := os }) ∨
      decodeBody s = { s with phase := .done, cur := s.root } ∨
      decodeBody s = { s with phase := .error, err := .malformedStream, cur := s.root } := by
  rw [decodeBody]
  split
  · split
    · exact .inr (.inl rfl)
    · exact .inr (.inr rfl)
  · have hloop := decodeLoop_eq (s.setCur s.root)
    rw [State.walkBits_frame] at hloop
    exact .inl ⟨_, _, hloop⟩

theorem exec_decode_of_runs {s : State} (ha : s.acceptance (some .decode) = .runs .decode) :
    exec .decode s = .next (decodeBody (s.begin .decode)) :=
  runCommand_of_runs (fun t => .next (decodeBody t)) ha

/-! ### What the three commands leave as it was -/

/-- Settles O46: a command that does not run changes at most `PHASE` and `ERR`, and the ends of one
that runs are known. -/
theorem frameOfStreamCommands : Obligations.FrameOfStreamCommands := by
  refine ⟨fun s t h => ?_, fun s t h => ?_, fun s t h => ?_⟩
  · by_cases ha : s.acceptance (some .wrhdr) = .runs .wrhdr
    · cases (exec_wrhdr_of_runs ha).symm.trans h
      exact ⟨rfl, fun _ => rfl⟩
    · obtain ⟨ht, herr⟩ := frame_of_not_running ha h
      exact ⟨by rw [ht], herr⟩
  · by_cases ha : s.acceptance (some .encode) = .runs .encode
    · rcases exec_encode_cases ha with ⟨os, he⟩ | ⟨bits, rest, he⟩ <;> cases he.symm.trans h
      · exact ⟨rfl, fun _ => rfl⟩
      · exact ⟨rfl, fun hp => absurd rfl hp⟩
    · obtain ⟨ht, herr⟩ := frame_of_not_running ha h
      exact ⟨by rw [ht], herr⟩
  · by_cases ha : s.acceptance (some .decode) = .runs .decode
    · cases (exec_decode_of_runs ha).symm.trans h
      rcases decodeBody_cases (s.begin .decode) with ⟨n, os, he⟩ | he | he <;> rw [he]
      · exact ⟨rfl, fun _ => rfl⟩
      · exact ⟨rfl, fun _ => rfl⟩
      · exact ⟨rfl, fun hp => absurd rfl hp⟩
    · obtain ⟨ht, herr⟩ := frame_of_not_running ha h
      exact ⟨by rw [ht], herr⟩

end Sys2Proof.Machine
end

section
/-! The short header: `RDHDR` keeps the counts that arrived whole and raises `MalformedStream`. -/

namespace Sys2Proof.Machine

open Sys2Proof.Safety

/-- A stream that ends before the counts of `syms` do leaves those of which a byte is missing as they
were (45_decoder.md R252). -/
theorem readHeader_of_short (syms : List Byte) (s : State) (hnd : syms.Nodup)
    (hl : s.istr.length < syms.length * countBytes s.cb) :
    ∃ f : ByteTable Count,
      readHeader syms s =
        { s with phase := .error, err := .malformedStream, istr := [], freq := f } ∧
      ∀ (m : Nat) (hm : m < syms.length),
        (f.atByte syms[m]).toNat =
          if (m + 1) * countBytes s.cb ≤ s.istr.length then
            countValue s.istr (m * countBytes s.cb) (countBytes s.cb)
          else (s.freqAt syms[m]).toNat := by
  have hpos := countBytes_pos s.cb
  -- the number of counts that arrived whole
  obtain ⟨q, hq⟩ : ∃ q, q = s.istr.length / countBytes s.cb := ⟨_, rfl⟩
  have hwhole : ∀ m, m < q ↔ (m + 1) * countBytes s.cb ≤ s.istr.length := fun m =>
    hq ▸ Nat.le_div_iff_mul_le hpos
  have hqlt : q < syms.length := hq ▸ (Nat.div_lt_iff_lt_mul hpos).mpr hl
  have htake : (syms.take q).length = q := List.length_take_of_le hqlt.le
  obtain ⟨f, hf, hread, hrest⟩ := readHeader_append (syms.take q) (syms.drop q) s
    (hnd.sublist (List.take_sublist q syms))
    (by rw [htake, hq]; exact Nat.div_mul_le_self _ _)
  refine ⟨f, ?_, fun m hm => ?_⟩
  · rw [List.take_append_drop, htake, List.drop_eq_getElem_cons hqlt] at hf
    rcases readCount_cases
      { s with freq := f, istr := s.istr.drop (q * countBytes s.cb) } (countBytes s.cb) 0 0 with
      ⟨hle, -⟩ | ⟨-, hc⟩
    · have hover := (hwhole q).not.mp (Nat.lt_irrefl q)
      rw [List.length_drop] at hle
      rw [Nat.succ_mul] at hover
      omega
    · rw [hf, readHeader, hc]
      rfl
  · simp only [← hwhole]
    split
    next hmq => simpa using hread m (htake.symm ▸ hmq)
    next hmq =>
      have hmem : syms[m] ∈ syms.drop q :=
        List.mem_drop_iff_getElem.mpr ⟨m - q, by omega, by congr 1; omega⟩
      rw [hrest _ fun ht => List.disjoint_take_drop hnd le_rfl ht hmem]

/-- Settles O40: the counts are those of all symbols in ascending order, which are 0 before. -/
theorem rdhdrShortHeaderRaises : Obligations.RdhdrShortHeaderRaises := by
  intro s ha hsrc hl
  obtain ⟨f, hf, hread⟩ := readHeader_of_short allSymbols (s.begin .rdhdr).zeroCounts
    nodup_allSymbols (by rwa [length_allSymbols])
  refine ⟨_, (runCommand_of_runs (fun t => .next (rdhdrBody t)) (acceptance_rdhdr ha hsrc)).trans
    (congrArg _ hf), fun b => ?_, rfl⟩
  have hb := hread b.toNat (by rw [length_allSymbols]; exact b.isLt)
  have hzero : (s.begin .rdhdr).zeroCounts.freqAt b = 0 := Table.atByte_const 0 b
  rw [getElem_allSymbols, hzero] at hb
  exact hb

end Sys2Proof.Machine
end

section
/-! The decoder's walk: `DECODE` writes what `dec` says of the bits of its source, or meets a Leaf at
the root. -/

namespace Sys2Proof.Machine

open Sys2Proof.Safety

/-! ### The walk -/

section
variable {s t : State} (hn : t.nodes = s.nodes) (hr : t.root = s.root)
include hn hr

/-- What the walk writes depends on the tree alone (45_decoder.md R256). -/
theorem dec_congr (cs : List Bool) (n : NodeIdx) : dec t cs n = dec s cs n := by
  induction cs generalizing n with
  | nil => rfl
  | cons c cs ih =>
    rw [dec, dec, State.child_congr hn, State.isLeaf_congr hn, State.nodeAt_congr hn, hr, ih, ih]

theorem decEnd_congr (cs : List Bool) (n : NodeIdx) : decEnd t cs n = decEnd s cs n := by
  induction cs generalizing n with
  | nil => rfl
  | cons c cs ih => rw [decEnd, decEnd, State.child_congr hn, State.isLeaf_congr hn, hr, ih, ih]

end

/-- The walk of some bits writes their symbols and stops where they end (45_decoder.md R260). -/
theorem State.walkBits_eq (s : State) (cs : List Bool) :
    s.walkBits cs = { s with cur := decEnd s cs s.cur, ostr := s.ostr ++ dec s cs s.cur } := by
  induction cs generalizing s with
  | nil => rw [State.walkBits_nil, dec, decEnd, List.append_nil]
  | cons c cs ih =>
    have htree : (s.walkBit c).nodes = s.nodes ∧ (s.walkBit c).root = s.root := by
      rcases s.walkBit_cases c with ⟨_, h⟩ | ⟨_, h⟩ <;> rw [h] <;> exact ⟨rfl, rfl⟩
    obtain ⟨hn, hr⟩ := htree
    rw [State.walkBits_cons, ih, dec_congr hn hr, decEnd_congr hn hr, dec, decEnd]
    rcases s.walkBit_cases c with ⟨hl, h⟩ | ⟨hl, h⟩ <;> rw [h, hl]
    · simp only [if_true, List.append_assoc, List.singleton_append]
    · rfl

/-! ### `DECODE` -/

theorem acceptance_decode {s : State} (ha : Accepting s) (htv : s.tv = true) (hsrc : s.srcOk = true)
    (hdst : s.dstOk = true) : s.acceptance (some .decode) = .runs .decode := by
  rw [State.acceptance_of_accepting ha]
  simp [State.check, needs, State.flagHolds, htv, hsrc, hdst]

/-- Settles O41: the loop walks every bit of the source from the root. -/
theorem decodeWalksEveryBit : Obligations.DecodeWalksEveryBit := by
  intro s ha htv hsrc hdst hi
  have hroot : ¬ ((s.begin .decode).setCur s.root).isLeaf s.root = true := Bool.eq_false_iff.mp hi
  rw [exec_decode_of_runs (acceptance_decode ha htv hsrc hdst), decodeBody, State.begin_root,
    if_neg hroot]
  have hloop := decodeLoop_eq ((s.begin .decode).setCur s.root)
  have htree : ((s.begin .decode).setCur s.root).nodes = s.nodes := rfl
  rw [State.walkBits_eq, dec_congr htree rfl, decEnd_congr htree rfl] at hloop
  exact congrArg _ hloop

/-- Settles O42: a Leaf root is found before the loop. -/
theorem decodeOnLeafRoot : Obligations.DecodeOnLeafRoot := by
  intro s ha htv hsrc hdst hl
  have hroot : ((s.begin .decode).setCur s.root).isLeaf s.root = true := hl
  rw [exec_decode_of_runs (acceptance_decode ha htv hsrc hdst), decodeBody, State.begin_root,
    if_pos hroot]
  have hempty : ((s.begin .decode).setCur s.root).srcEmpty = true ↔ s.istr = [] := List.isEmpty_iff
  constructor <;> intro hi
  · rw [if_pos (hempty.mpr hi)]
    rfl
  · rw [if_neg (hempty.not.mpr hi)]
    rfl

end Sys2Proof.Machine
end

section
/-! The decoder's walk along the paths of the tree: the path to a Leaf gives its symbol, and pad bits
give that of the leftmost Leaf. -/

namespace Sys2Proof.Safety

open Sys2Proof.Machine

/-! ### The leftmost Leaf -/

section
variable {s : State} {p : List Bool} {n : NodeIdx} (h : TreeShape s)
include h

/-- From every node the left edges lead down to a Leaf. -/
theorem TreeShape.exists_leftmost_leaf (hp : PathTo s p n) :
    ∃ d b, LeafPath s (p ++ List.replicate d false) b := by
  induction n using WellFoundedLT.induction generalizing p with
  | ind n ih =>
    cases hl : s.isLeaf n with
    | true => exact ⟨0, _, n, by rwa [List.replicate_zero, List.append_nil], hl, rfl⟩
    | false =>
      obtain ⟨d, b, hb⟩ := ih _ (h.child_lt (h.path_lt hp) hl false) (hp.edge false hl)
      exact ⟨d + 1, b, by rwa [List.append_assoc, List.singleton_append] at hb⟩

/-- With two symbols or more the root is no Leaf (10_state.md R39). -/
theorem TreeShape.isLeaf_root_eq_false (hk : 2 ≤ distinct s) : s.isLeaf s.root = false := by
  have hroot := h.root_last
  have hsize := h.size
  by_contra hl
  have hlt := (h.isLeaf_iff h.root_lt).mp (eq_true_of_ne_false hl)
  omega

end

/-! ### What the walk writes -/

section
variable {s : State} {p : List Bool} {n : NodeIdx} {b : Byte}

/-- The walk along a path to an Internal node writes nothing. -/
theorem dec_append_of_pathTo (hp : PathTo s p n) (hi : s.isLeaf n = false) (rest : List Bool) :
    dec s (p ++ rest) s.root = dec s rest n := by
  induction hp generalizing rest with
  | root => rfl
  | edge c _ hn ih =>
    rw [List.append_assoc, ih hn, List.singleton_append, dec, if_neg (Bool.eq_false_iff.mp hi)]

/-- The walk of a part of the path to a Leaf writes nothing. -/
theorem dec_of_leafPath_append {c : Bool} {r : List Bool} (hp : LeafPath s (p ++ c :: r) b) :
    dec s p s.root = [] := by
  obtain ⟨n, hn, -, -⟩ := hp
  obtain ⟨m, hm, hi⟩ := hn.of_append_cons
  rw [← List.append_nil p, dec_append_of_pathTo hm hi, dec]

variable (hroot : s.isLeaf s.root = false)
include hroot

theorem LeafPath.length_pos (hp : LeafPath s p b) : 1 ≤ p.length := by
  obtain ⟨n, hn, hl, -⟩ := hp
  cases hn with
  | root => rw [hroot] at hl; cases hl
  | edge c hn hi => rw [List.length_append, List.length_singleton]; omega

/-- The walk of the path to a Leaf writes its symbol and is back at the root (45_decoder.md R256). -/
theorem dec_append_of_leafPath (hp : LeafPath s p b) (rest : List Bool) :
    dec s (p ++ rest) s.root = b :: dec s rest s.root := by
  obtain ⟨n, hn, hl, rfl⟩ := hp
  cases hn with
  | root => rw [hroot] at hl; cases hl
  | edge c hn hi =>
    rw [List.append_assoc, dec_append_of_pathTo hn hi, List.singleton_append, dec, if_pos hl]

/-- The walk of the codes of some bytes writes those bytes (45_decoder.md R265). -/
theorem dec_codedBits_append (x : List Byte) (rest : List Bool)
    (hx : ∀ b ∈ x, LeafPath s (codeBits (s.codeAt b)) b) :
    dec s (codedBits s x ++ rest) s.root = x ++ dec s rest s.root := by
  induction x with
  | nil => rfl
  | cons b x ih =>
    obtain ⟨hb, hx⟩ := List.forall_mem_cons.mp hx
    have hbits : codedBits s (b :: x) = codeBits (s.codeAt b) ++ codedBits s x := List.flatMap_cons
    rw [hbits, List.append_assoc, dec_append_of_leafPath hroot hb, ih hx, List.cons_append]

/-- The walk of zeros writes the symbol of the leftmost Leaf once for each `d` of them, where `d` is
its depth (45_decoder.md R261). -/
theorem dec_replicate_false {d : Nat} (hp : LeafPath s (List.replicate d false) b) (m : Nat) :
    dec s (List.replicate m false) s.root = List.replicate (m / d) b := by
  have hd : 1 ≤ d := List.length_replicate (n := d) (a := false) ▸ hp.length_pos hroot
  induction m using Nat.strong_induction_on with
  | h m ih =>
    by_cases hm : m < d
    · obtain ⟨k, rfl⟩ : ∃ k, d = m + (k + 1) := ⟨d - m - 1, by omega⟩
      rw [List.replicate_add, List.replicate_succ] at hp
      rw [dec_of_leafPath_append hp, Nat.div_eq_of_lt hm, List.replicate_zero]
    · obtain ⟨k, rfl⟩ : ∃ k, m = d + k := ⟨m - d, by omega⟩
      rw [List.replicate_add, dec_append_of_leafPath hroot hp, ih k (by omega),
        Nat.add_div_left _ hd, List.replicate_succ]

end

end Sys2Proof.Safety
end

section
/-! The round trip: the body `ENCODE` writes has the bits of the codes and the pad bits after them, and
`DECODE` walks them all. -/

namespace Sys2Proof.Machine

open Sys2Proof.Safety

/-! ### The bits of a body -/

theorem getElem?_byteBits_byteOfBits (bits : List Bool) (i : Nat) {j : Nat} (hj : j < 8) :
    (byteBits (byteOfBits bits i))[j]? = some (bits.getD (8 * i + j) false) := by
  have hbit : (byteBits (byteOfBits bits i))[j]? = some ((byteOfBits bits i).getLsbD (7 - j)) := by
    simp [byteBits, hj]
  rw [hbit, getLsbD_byteOfBits _ (by omega), Nat.sub_sub_self (by omega)]

theorem bodyBits_length (bytes : List Byte) : (bodyBits bytes).length = 8 * bytes.length := by
  simp only [bodyBits, List.length_flatMap, byteBits_length, List.map_const', List.sum_replicate,
    smul_eq_mul, Nat.mul_comm]

/-- Bit `i` of a body is bit `i` of the sequence it was made of, or 0 (30_encoding.md R109). -/
theorem getElem?_bodyBits_bodyBytes (bits : List Bool) {i : Nat}
    (hi : i < 8 * (bodyBytes bits).length) :
    (bodyBits (bodyBytes bits))[i]? = some (bits.getD i false) := by
  have hk : i / 8 < (bodyBytes bits).length := by omega
  have hj : i % 8 < 8 := Nat.mod_lt _ (by omega)
  have hbit := getElem?_flatMap_of_length byteBits_length _ hk hj
  simp only [bodyBytes, List.getElem_map, List.getElem_range] at hbit
  rwa [getElem?_byteBits_byteOfBits _ _ hj, Nat.div_add_mod, Nat.div_add_mod'] at hbit

/-- The bits of a body are those it was made of, followed by the pad bits (30_encoding.md R109). -/
theorem bodyBits_bodyBytes (bits : List Bool) :
    bodyBits (bodyBytes bits) = bits ++ List.replicate (padCount bits) false := by
  have hlen : (bodyBits (bodyBytes bits)).length = bits.length + padCount bits := by
    rw [bodyBits_length, bodyBytes_length, padCount]
    omega
  refine List.ext_getElem (by rw [hlen, List.length_append, List.length_replicate])
    fun i hi hi' => ?_
  have hbit := getElem?_bodyBits_bodyBytes bits (bodyBits_length _ ▸ hi)
  rw [List.getElem?_eq_getElem hi, Option.some.injEq] at hbit
  rw [hbit, List.getElem_append]
  split
  next h => exact List.getD_eq_getElem _ _ h
  next h => rw [List.getElem_replicate, List.getD_eq_default _ _ (Nat.not_lt.mp h)]

/-! ### `DECODE` of what `ENCODE` wrote -/

/-- A table that `GENCODE` derives from the tree holds the codes of that tree (10_state.md R34). -/
theorem pathCodes_of_codeMatches {s : State} (ha : Accepting s) (htv : s.tv = true)
    (h : TreeShape s) (hc : CodeMatches s) : PathCodes s s := by
  obtain ⟨t, he, -, hpath⟩ := exec_gencode_of_tree ha htv h
  rw [exec_gencode_of_runs (acceptance_gencode ha htv)] at he
  have hcode := gencodeBody_congr (s := s) (t := s.begin .gencode) rfl rfl
  rw [ofExcept_next he, (codeMatches_iff s).mp hc] at hcode
  have hat : ∀ b, s.codeAt b = t.codeAt b := fun b =>
    congrArg (·.atByte b) (Except.ok.inj hcode).symm
  exact ⟨fun p b hp => (hat b).trans (hpath.path p b hp),
    fun b hb => (hat b).trans (hpath.absent b hb)⟩

/-- `DECODE` with new attachments, on a core that holds the tree of `s`, writes what the walk in `s`
does (45_decoder.md R260). -/
theorem exec_decode_attached {s t : State} (ha : Accepting t) (htv : t.tv = true)
    (hn : t.nodes = s.nodes) (hr : t.root = s.root) (hroot : s.isLeaf s.root = false)
    (body : List Byte) :
    ∃ u, exec .decode (t.attachSource body).attachDest = .next u ∧ u.phase = .done ∧
      u.ostr = dec s (bodyBits body) s.root := by
  have hi : t.isLeaf t.root = false := by rw [State.isLeaf_congr hn, hr, hroot]
  have hnodes : (t.attachSource body).attachDest.nodes = s.nodes := hn
  have hout : dec (t.attachSource body).attachDest (bodyBits body) t.root =
      dec s (bodyBits body) s.root := by rw [dec_congr hnodes hr, hr]
  exact ⟨_, decodeWalksEveryBit _ ha htv rfl rfl hi, rfl, hout⟩

/-- Settles O43: the walk of the codes writes the source, and that of the pad bits the symbol of the
leftmost Leaf. -/
theorem decodeOfEncodedBody : Obligations.DecodeOfEncodedBody := by
  intro s ha htv hcv hsrc hdst h hmatch hk hx
  have hc := pathCodes_of_codeMatches ha htv h hmatch
  have hroot := h.isLeaf_root_eq_false hk
  have hvalid : ∀ b ∈ s.istr, (s.codeAt b).valid = true := fun b hb =>
    (hc.valid_iff b).mpr ((h.exists_leafPath_iff b).mpr (hx b hb))
  obtain ⟨d0, s0, hleft⟩ := h.exists_leftmost_leaf .root
  rw [List.nil_append] at hleft
  have hdec : dec s (bodyBits (bodyBytes (codedBits s s.istr))) s.root =
      s.istr ++ List.replicate (padCount (codedBits s s.istr) / d0) s0 := by
    rw [bodyBits_bodyBytes,
      dec_codedBits_append hroot _ _ fun b hb => hc.leafPath_codeBits h (hvalid b hb),
      dec_replicate_false hroot hleft]
  obtain ⟨t, he, hbody, hdone, htvt, hn, hr⟩ : ∃ t, exec .encode s = .next t ∧
      t.ostr = s.ostr ++ bodyBytes (codedBits s s.istr) ∧ t.phase = .done ∧ t.tv = s.tv ∧
      t.nodes = s.nodes ∧ t.root = s.root :=
    ⟨_, exec_encode_of_coded (acceptance_encode ha hcv hsrc hdst) hvalid, rfl, rfl, rfl, rfl, rfl⟩
  obtain ⟨u, hu, hend, hout⟩ := exec_decode_attached (.inr hdone) (htvt.trans htv) hn hr hroot _
  exact ⟨_, t, he, hbody, u, d0, s0, hu, hend, by simpa using hleft.length_pos hroot, hleft,
    hout.trans hdec⟩

end Sys2Proof.Machine
end

section
/-! The phases of the core: what each of its own steps makes of `PHASE` and `ERR`, and how an accepted
command ends (46_control.md R284, R285). -/

namespace Sys2Proof.Machine

open Sys2Proof.Safety

/-! ### The phase transitions of a running command -/

/-- What a step of the core that runs the command `i` in `PHASE` 1 does to `PHASE` and `ERR`: it goes
on with `i`, ends its loop over `ISTR`, completes, clears the core, or raises (46_control.md R285). -/
inductive PhaseMove (i : Instr) (s t : State) : Prop
  | stays {k : Task} (hp : t.phase = .streaming k) (hk : commandOf k = i)
  | flushes {f : FlushTask} (hp : t.phase = .flushing f) (hi : s.istr = [])
      (hf : (f = .encode ∧ i = .encode) ∨ (f = .decode ∧ i = .decode))
  | completes (hp : t.phase = .done) (he : t.err = s.err)
      (hi : i = .analyze ∨ i = .build ∨ i = .gencode ∨ i = .wrhdr ∨ i = .rdhdr)
  | clears (hp : t.phase = .idle) (he : t.err = .none) (hi : i = .clear)
  | raises (hp : t.phase = .error) (he : t.err ≠ .none)
      (hi : i = .analyze ∨ i = .build ∨ i = .encode ∨ i = .rdhdr ∨ i = .decode)

section
variable {s t : State}

theorem phaseMove_tickStart {i : Instr} (h : tickStart i s = .next t) : PhaseMove i s t := by
  cases i with
  | clear => cases h; exact .clears rfl rfl rfl
  | decode =>
    rw [tickStart] at h
    split at h
    · split at h <;> cases h
      next hempty => exact .flushes rfl (List.isEmpty_iff.mp hempty) (by simp)
      next => exact .raises rfl nofun (by simp)
    · cases h
      exact .stays rfl rfl
  | _ =>
    cases h
    exact .stays rfl rfl

theorem phaseMove_tickAnalyze (hp : s.phase = .streaming .analyze) (h : tickAnalyze s = .next t) :
    PhaseMove .analyze s t := by
  rcases s.srcRead_cases with ⟨_, hr⟩ | ⟨b, rest, _, hr⟩ <;> rw [tickAnalyze, hr] at h
  · cases h
    exact .completes rfl rfl (by simp)
  · rcases analyzeByte_cases b (s.setIstr rest) with ⟨_, hb⟩ | ⟨_, hb⟩ <;> simp only [hb] at h <;>
      cases h
    · exact .raises rfl nofun (by simp)
    · exact .stays hp rfl

theorem phaseMove_tickLoad {k : Nat} (h : tickLoad k s = .next t) : PhaseMove .build s t := by
  rw [tickLoad] at h
  split at h
  · rcases hl : loadSymbol s (BitVec.ofNat 8 k) with f | u <;> rw [hl] at h <;> cases h
    rw [loadSymbol_frame hl]
    exact .stays rfl rfl
  · split at h <;> cases h
    · exact .raises rfl nofun (by simp)
    · exact .stays rfl rfl

theorem phaseMove_tickMerge (hp : s.phase = .streaming .buildMerge) (h : tickMerge s = .next t) :
    PhaseMove .build s t := by
  rw [tickMerge] at h
  split at h
  · rw [mergeOnce_frame (ofExcept_next h)]
    exact .stays hp rfl
  · obtain ⟨r, rest, -, rfl⟩ := buildFinish_ok (ofExcept_next h)
    exact .completes rfl rfl (by simp)

theorem phaseMove_tickGencode {stack : List (NodeIdx × List Bool)}
    (h : tickGencode stack s = .next t) : PhaseMove .gencode s t := by
  rcases stack with _ | ⟨⟨n, path⟩, rest⟩
  · cases h
    exact .completes rfl rfl (by simp)
  · rw [tickGencode] at h
    split at h
    · cases h
    · split at h <;> cases h <;> exact .stays rfl rfl

theorem phaseMove_tickWrhdr {k j : Nat} (h : tickWrhdr k j s = .next t) :
    PhaseMove .wrhdr s t := by
  rw [tickWrhdr] at h
  split at h <;> cases h
  · exact .stays rfl rfl
  · exact .completes rfl rfl (by simp)

theorem phaseMove_tickEncode {cs : List Bool} (h : tickEncode cs s = .next t) :
    PhaseMove .encode s t := by
  rcases cs with _ | ⟨c, cs⟩
  · rcases s.srcRead_cases with ⟨hi, hr⟩ | ⟨b, rest, _, hr⟩ <;> rw [tickEncode, hr] at h
    · cases h
      exact .flushes rfl hi (by simp)
    · dsimp only at h
      split at h <;> cases h
      · exact .stays rfl rfl
      · exact .raises rfl nofun (by simp)
  · cases h
    exact .stays rfl rfl

theorem phaseMove_tickRdhdr {k j : Nat} {v : Count} (h : tickRdhdr k j v s = .next t) :
    PhaseMove .rdhdr s t := by
  rw [tickRdhdr] at h
  split at h
  · rcases s.srcRead_cases with ⟨_, hr⟩ | ⟨b, rest, _, hr⟩ <;> rw [hr] at h
    · cases h
      exact .raises rfl nofun (by simp)
    · dsimp only at h
      split at h <;> cases h <;> exact .stays rfl rfl
  · cases h
    exact .completes rfl rfl (by simp)

theorem phaseMove_tickDecode {cs : List Bool} (h : tickDecode cs s = .next t) :
    PhaseMove .decode s t := by
  rcases cs with _ | ⟨c, cs⟩
  · rcases s.srcRead_cases with ⟨hi, hr⟩ | ⟨b, rest, _, hr⟩ <;> rw [tickDecode, hr] at h <;> cases h
    · exact .flushes rfl hi (by simp)
    · exact .stays rfl rfl
  · cases h
    exact .stays rfl rfl

/-- A step of the core in `PHASE` 1 is one of the moves of the command that stands there. -/
theorem phaseMove_tick {k : Task} (hp : s.phase = .streaming k) (h : tick s = .next t) :
    PhaseMove (commandOf k) s t := by
  rw [tick, hp] at h
  cases k with
  | start i => exact phaseMove_tickStart h
  | analyze => exact phaseMove_tickAnalyze hp h
  | buildLoad k => exact phaseMove_tickLoad h
  | buildMerge => exact phaseMove_tickMerge hp h
  | gencode stack => exact phaseMove_tickGencode h
  | wrhdr k j => exact phaseMove_tickWrhdr h
  | encode cs => exact phaseMove_tickEncode h
  | rdhdr k j v => exact phaseMove_tickRdhdr h
  | decode cs => exact phaseMove_tickDecode h

/-! ### The other phases -/

/-- A ready core left to itself stays as it is. -/
theorem tick_of_ready (hb : s.busy = false) : tick s = .next s := by
  rcases s.busy_eq_false_iff.mp hb with hp | hp | hp <;> rw [tick, hp]

theorem encodeFlush_completes (s : State) :
    s.encodeFlush.phase = .done ∧ s.encodeFlush.err = s.err := by
  rw [State.encodeFlush]
  split <;> exact ⟨rfl, rfl⟩

/-- `PHASE` 2 is left for `PHASE` 3, with no `raise` (45_decoder.md R264). -/
theorem tick_of_flushing {f : FlushTask} (hp : s.phase = .flushing f) (h : tick s = .next t) :
    t.phase = .done ∧ t.err = s.err := by
  rw [tick, hp] at h
  cases f <;> cases h
  · exact encodeFlush_completes s
  · exact ⟨rfl, rfl⟩

end

/-- Settles O53: the moves of each command in `PHASE` 1, and the one way out of `PHASE` 2. -/
theorem phaseTransitionsOfTheCore : Obligations.PhaseTransitionsOfTheCore := by
  intro s t h
  refine ⟨fun hb => ?_, fun k hp => ?_, fun f hp => tick_of_flushing hp h⟩
  · cases (tick_of_ready hb).symm.trans h
    rfl
  · cases phaseMove_tick hp h with
    | stays hp' hk => exact .inl ⟨_, hp', hk⟩
    | flushes hp' hi hf => exact .inr (.inl ⟨_, hp', hi, hf⟩)
    | completes hp' he hi => exact .inr (.inr (.inl ⟨hp', he, hi⟩))
    | clears hp' he hi => exact .inr (.inr (.inr (.inl ⟨hp', he, hi⟩)))
    | raises hp' he hi => exact .inr (.inr (.inr (.inr ⟨hp', he, hi⟩)))

/-! ### The ends of the commands -/

/-- A command other than `CLEAR` that runs completes with `ERR` as it was, or raises. -/
theorem exec_completes_or_raises {i : Instr} {s t : State} (hi : i ≠ .clear)
    (ha : s.acceptance (some i) = .runs i) (h : exec i s = .next t) :
    (t.phase = .done ∧ t.err = s.err) ∨ (t.phase = .error ∧ t.err ≠ .none) := by
  cases i with
  | clear => exact absurd rfl hi
  | analyze =>
    rcases exec_analyze_cases ha with ⟨f, _, he⟩ | ⟨f, rest, he⟩ <;> cases he.symm.trans h
    · exact .inl ⟨rfl, rfl⟩
    · exact .inr ⟨rfl, nofun⟩
  | build =>
    rw [exec_build_of_runs ha] at h
    rcases buildBody_cases (ofExcept_next h) with ht | ht <;> rw [ht]
    · exact .inl ⟨rfl, rfl⟩
    · exact .inr ⟨rfl, nofun⟩
  | gencode =>
    rw [exec_gencode_of_runs ha] at h
    rw [gencodeBody_ok (ofExcept_next h)]
    exact .inl ⟨rfl, rfl⟩
  | wrhdr =>
    cases (exec_wrhdr_of_runs ha).symm.trans h
    exact .inl ⟨rfl, rfl⟩
  | encode =>
    rcases exec_encode_cases ha with ⟨os, he⟩ | ⟨bits, rest, he⟩ <;> cases he.symm.trans h
    · exact .inl ⟨rfl, rfl⟩
    · exact .inr ⟨rfl, nofun⟩
  | rdhdr =>
    obtain ⟨f, bs, he | he⟩ := exec_rdhdr_cases ha <;> cases he.symm.trans h
    · exact .inl ⟨rfl, rfl⟩
    · exact .inr ⟨rfl, nofun⟩
  | decode =>
    cases (exec_decode_of_runs ha).symm.trans h
    rcases decodeBody_cases (s.begin .decode) with ⟨n, os, he⟩ | he | he <;> rw [he]
    · exact .inl ⟨rfl, rfl⟩
    · exact .inl ⟨rfl, rfl⟩
    · exact .inr ⟨rfl, nofun⟩

/-- Settles O13: `CLEAR` leaves the reset core, and the ends of every other command are known. -/
theorem acceptedCommandsEndReady : Obligations.AcceptedCommandsEndReady := by
  intro i s t ha h
  by_cases hi : i = .clear
  · subst hi
    cases (runCommand_of_runs (fun u => .next u.clearCore) ha).symm.trans h
    exact .inl ⟨rfl, rfl, rfl⟩
  · exact .inr ((exec_completes_or_raises hi ha h).imp (⟨hi, ·⟩) (⟨hi, ·⟩))

end Sys2Proof.Machine
end

section
/-! The command port and the read port: `CLEAR`, a word offered to a busy core, a command that starts,
and register reads (46_control.md R281, R282, R283). -/

namespace Sys2Proof.Machine

open Sys2Proof.Safety

/-! ### `CLEAR` -/

/-- Settles O5: `clearCore` is the reset state but for the fields named. -/
theorem clearGivesResetCore : Obligations.ClearGivesResetCore :=
  fun _ hb => exec_clear hb

/-! ### A busy core -/

section
variable {s : State} (hb : s.busy = true)
include hb

theorem exec_of_busy (i : Instr) : exec i s = .next s := by
  obtain ⟨body, -, he⟩ := exec_eq_runCommand i
  rw [he, runCommand, State.acceptance_of_busy hb]

theorem illegalWord_of_busy : illegalWord s = .next s := by
  rw [illegalWord, State.acceptance_of_busy hb]

theorem offerWord_of_busy (w : Byte) : offerWord w s = s := by
  rw [offerWord, State.acceptance_of_busy hb]

theorem issueWord_of_busy (w : Byte) : issueWord w s = .next s := by
  rw [issueWord]
  split
  · exact exec_of_busy hb _
  · exact illegalWord_of_busy hb

end

/-- Settles O7: acceptance takes no word of a busy core, so the word stays in the script. -/
theorem busyCoreTakesNoWord : Obligations.BusyCoreTakesNoWord := by
  intro s hb
  refine ⟨exec_of_busy hb, offerWord_of_busy hb, issueWord_of_busy hb, fun w rest hs => ?_⟩
  rw [step_cmd hs, if_pos hb]

/-! ### Register reads -/

section
variable {s : State} {a : BitVec 12}

/-- A read that shows the register: of any in a ready core, of `STATUS` always. -/
theorem readRegister_of_shown (h : s.busy = false ∨ a = 0x000) :
    s.readRegister a = { s with readData := s.register a } := by
  refine if_neg fun ⟨hb, ha⟩ => ?_
  rcases h with h | rfl
  · simp [h] at hb
  · exact ha rfl

/-- A read of any other register of a busy core takes the next free value (20_memory.md R82). -/
theorem readRegister_of_busy (hb : s.busy = true) (ha : a ≠ 0x000) :
    s.readRegister a =
      { s with readData := Config.unspecifiedRead s.draws, draws := s.draws + 1 } :=
  if_pos ⟨hb, fun h => ha (BitVec.eq_of_toNat_eq h)⟩

theorem readRegister_frame (s : State) (a : BitVec 12) :
    s.readRegister a = { s with readData := (s.readRegister a).readData,
                                draws := (s.readRegister a).draws } := by
  rw [State.readRegister]
  split <;> rfl

end

/-- Settles O50: a read writes the two fields, from the register or from the next free value. -/
theorem registerReadHasNoSideEffect : Obligations.RegisterReadHasNoSideEffect := by
  refine fun s a => ⟨readRegister_frame s a, fun h => ?_, fun hb ha => ?_⟩
  · rw [readRegister_of_shown h]
    exact ⟨rfl, rfl⟩
  · rw [readRegister_of_busy hb ha]
    exact ⟨rfl, rfl⟩

/-! ### A command that starts -/

/-- The check lets a command through whose flag and streams are there (46_control.md R283). -/
theorem State.check_of_needs {s : State} {i : Instr} (hflag : s.flagHolds (needs i).flag = true)
    (hsrc : (needs i).source = true → s.srcOk = true)
    (hdst : (needs i).dest = true → s.dstOk = true) : s.check (some i) = .runs i := by
  rcases s.check_cases i with ⟨hf, _⟩ | ⟨_, hs, ho, _⟩ | ⟨_, _, hd, ho, _⟩ | ⟨_, _, _, hc⟩
  · simp [hf] at hflag
  · simp [hsrc hs] at ho
  · simp [hdst hd] at ho
  · exact hc

/-- A command that runs starts with `ERR = 0` (60_exceptions.md R311). -/
theorem State.begin_err_of_runs {s : State} {i : Instr} (ha : s.acceptance (some i) = .runs i)
    (h : ErrMatches s) : (s.begin i).err = .none := by
  obtain ⟨-, hclear⟩ := State.acceptance_runs ha
  rw [State.begin_err]
  split
  · rfl
  next hi => exact not_not.mp fun he => hi (hclear (h.mp he))

theorem offerWord_of_runs {s : State} {w : Byte} {i : Instr} (hw : decodeWord w = some i)
    (ha : s.acceptance (some i) = .runs i) : offerWord w s = s.begin i := by
  rw [offerWord, hw, ha]

theorem step_offer {s : State} {w : Byte} {rest : List HostItem}
    (hs : s.script = .offer w :: rest) : step s = .next (offerWord w { s with script := rest }) :=
  step_action hs nofun

/-- Settles O60: the checks let the command through, and its start is `begin`. -/
theorem offeredCommandStarts : Obligations.OfferedCommandStarts := by
  intro s w i rest hw h
  have ha : s.acceptance (some i) = .runs i := by
    rcases h with ⟨hacc, hflag, hsrc, hdst⟩ | ⟨hp, rfl⟩
    · rw [State.acceptance_of_accepting hacc, State.check_of_needs hflag hsrc hdst]
    · exact State.acceptance_clear (s.busy_eq_false_iff.mpr (.inr (.inr hp)))
  have hoffer := offerWord_of_runs hw ha
  refine ⟨ha, hoffer, step_offer rfl, ?_, fun herr => ?_⟩
  · rw [hoffer]
    rfl
  · rw [hoffer]
    exact State.begin_err_of_runs ha herr

end Sys2Proof.Machine
end

section
/-! Faults at acceptance and the error phase: which check of 46_control.md R283 fails on which command,
and what an offered word does that does not run (60_exceptions.md R304 to R307, R311). -/

namespace Sys2Proof.Machine

open Sys2Proof.Safety

/-! ### A word that does not run -/

section
variable {s : State} {i : Instr} {w : Byte}

theorem exec_of_ignored (h : s.acceptance (some i) = .ignored) : exec i s = .next s := by
  obtain ⟨body, -, he⟩ := exec_eq_runCommand i
  rw [he, runCommand, h]

theorem exec_of_raised {e : Err} (h : s.acceptance (some i) = .raised e) :
    exec i s = .next (s.raise e) := by
  obtain ⟨body, -, he⟩ := exec_eq_runCommand i
  rw [he, runCommand, h]

theorem issueWord_of_ignored (h : s.acceptance (decodeWord w) = .ignored) :
    issueWord w s = .next s := by
  cases hw : decodeWord w with rw [hw] at h
  | none => rw [issueWord_of_none hw, illegalWord, h]
  | some i => rw [issueWord_of_some hw, exec_of_ignored h]

theorem offerWord_of_ignored (h : s.acceptance (decodeWord w) = .ignored) : offerWord w s = s := by
  rw [offerWord, h]

end

/-- Settles O8: the error phase ignores what does not decode to `CLEAR`, and it is not busy. -/
theorem errorPhaseIgnoresAllButClear : Obligations.ErrorPhaseIgnoresAllButClear := by
  intro s hp
  refine ⟨fun i hi => exec_of_ignored (State.acceptance_of_error hp (hi ∘ Option.some.inj)),
    fun w hw => ?_,
    fun a => readRegister_of_shown (.inl (s.busy_eq_false_iff.mpr (.inr (.inr hp))))⟩
  have ha : s.acceptance (decodeWord w) = .ignored :=
    State.acceptance_of_error hp (hw ∘ (Laws.decodeWord_eq_some_iff w .clear).mp)
  exact ⟨issueWord_of_ignored ha, offerWord_of_ignored ha⟩

/-- Settles O9: such a word decodes to no command, which is what the first check looks for. -/
theorem illegalWordRaisesIllegalCommand : Obligations.IllegalWordRaisesIllegalCommand := by
  intro s w hacc hw
  have hnone := Laws.decodeWord_eq_none hw
  have ha : s.acceptance none = .raised .illegalCommand := State.acceptance_of_accepting hacc none
  constructor
  · rw [issueWord_of_none hnone, illegalWord, ha]
    rfl
  · rw [offerWord, hnone, ha]
    rfl

/-! ### What each command needs -/

theorem needs_source_iff (i : Instr) :
    (needs i).source = true ↔ i = .analyze ∨ i = .encode ∨ i = .rdhdr ∨ i = .decode := by
  cases i <;> decide

theorem needs_dest_iff (i : Instr) :
    (needs i).dest = true ↔ i = .wrhdr ∨ i = .encode ∨ i = .decode := by
  cases i <;> decide

theorem flagHolds_needs_eq_false_iff (s : State) (i : Instr) :
    s.flagHolds (needs i).flag = false ↔
      ((i = .gencode ∨ i = .decode) ∧ s.tv = false) ∨ (i = .encode ∧ s.cv = false) := by
  cases i <;> simp [needs, State.flagHolds]

/-! ### When each check fails -/

section
variable {s : State} (i : Instr)

theorem check_sequenceError_iff :
    s.check (some i) = .raised .sequenceError ↔ s.flagHolds (needs i).flag = false := by
  rcases s.check_cases i with ⟨hf, hc⟩ | ⟨hf, _, _, hc⟩ | ⟨hf, _, _, _, hc⟩ | ⟨hf, _, _, hc⟩ <;>
    simp [hc, hf]

theorem check_sourceOpenFailure_iff :
    s.check (some i) = .raised .sourceOpenFailure ↔
      s.srcOk = false ∧ s.flagHolds (needs i).flag = true ∧ (needs i).source = true := by
  rcases s.check_cases i with ⟨hf, hc⟩ | ⟨hf, hs, ho, hc⟩ | ⟨_, hs, _, _, hc⟩ | ⟨_, hs, _, hc⟩
  · simp [hc, hf]
  · simp [hc, hf, hs, ho]
  all_goals
    simp only [hc, reduceCtorEq, Acceptance.raised.injEq, false_iff]
    rintro ⟨ho, -, h⟩
    simp [hs h] at ho

theorem check_destinationOpenFailure_iff :
    s.check (some i) = .raised .destinationOpenFailure ↔
      s.dstOk = false ∧ s.flagHolds (needs i).flag = true ∧
        ((needs i).source = true → s.srcOk = true) ∧ (needs i).dest = true := by
  rcases s.check_cases i with ⟨hf, hc⟩ | ⟨_, hs, ho, hc⟩ | ⟨hf, hs, hd, ho, hc⟩ | ⟨_, _, hd, hc⟩
  · simp [hc, hf]
  · simp [hc, hs, ho]
  · simpa [hc, hf, hd, ho] using hs
  · simp only [hc, reduceCtorEq, false_iff]
    rintro ⟨ho, -, -, h⟩
    simp [hd h] at ho

end

/-! ### The faults -/

/-- Settles O10: the flag check comes first, and three commands need a flag. -/
theorem missingFlagRaisesSequenceError : Obligations.MissingFlagRaisesSequenceError := by
  intro s hacc
  have hiff (i : Instr) : s.acceptance (some i) = .raised .sequenceError ↔
      ((i = .gencode ∨ i = .decode) ∧ s.tv = false) ∨ (i = .encode ∧ s.cv = false) := by
    rw [State.acceptance_of_accepting hacc, check_sequenceError_iff, flagHolds_needs_eq_false_iff]
  exact ⟨fun htv => ⟨exec_of_raised ((hiff _).mpr (.inl ⟨.inl rfl, htv⟩)),
      exec_of_raised ((hiff _).mpr (.inl ⟨.inr rfl, htv⟩))⟩,
    fun hcv => exec_of_raised ((hiff _).mpr (.inr ⟨rfl, hcv⟩)), fun i => (hiff i).mp⟩

/-- Settles O11: the source check comes after the flag check, and four commands need a source. -/
theorem detachedSourceRaisesSourceOpenFailure :
    Obligations.DetachedSourceRaisesSourceOpenFailure := by
  intro s i hacc
  rw [State.acceptance_of_accepting hacc, ← needs_source_iff, check_sourceOpenFailure_iff]
  refine ⟨fun hsrc hflag hi => exec_of_raised ?_, id⟩
  rw [State.acceptance_of_accepting hacc, check_sourceOpenFailure_iff]
  exact ⟨hsrc, hflag, hi⟩

/-- Settles O12: the destination check comes last, and three commands need a destination. -/
theorem detachedDestRaisesDestinationOpenFailure :
    Obligations.DetachedDestRaisesDestinationOpenFailure := by
  intro s i hacc
  rw [State.acceptance_of_accepting hacc, ← needs_dest_iff, check_destinationOpenFailure_iff]
  refine ⟨fun hdst hflag hsrc hi => exec_of_raised ?_, id⟩
  rw [State.acceptance_of_accepting hacc, check_destinationOpenFailure_iff]
  exact ⟨hdst, hflag, hsrc, hi⟩

end Sys2Proof.Machine
end

section
/-! Reset, the end of a run, and termination: a reset of a running command keeps what its steps did to
the streams, an ended run stands in one of the three ready phases, and every command answers a next
state (70_reset_and_hazards.md R340, R351, R356). -/

namespace Sys2Proof.Machine

open Sys2Proof.Safety

/-! ### A reset of a running command -/

/-- What one step of the core keeps, any number of its steps keeps. -/
theorem ticks_keeps {P : State → Prop} (hP : ∀ s t, P s → tick s = .next t → P t) (n : Nat)
    {s t : State} (hs : P s) (h : ticks n s = .next t) : P t := by
  induction n generalizing s with
  | zero =>
    cases h
    exact hs
  | succ n ih =>
    rw [ticks] at h
    cases hu : tick s with
    | next u =>
      rw [hu] at h
      exact ih (hP s u hs hu) h
    | fault f =>
      rw [hu] at h
      cases h
    | refused r =>
      rw [hu] at h
      cases h

section
variable {s t : State} {n : Nat}

theorem hostPart_ticks (h : ticks n s = .next t) : hostPart t = hostPart s :=
  ticks_keeps (P := fun u => hostPart u = hostPart s)
    (fun _ _ hu hm => (hostPart_tick hm).trans hu) n rfl h

theorem keeps_order_ticks (h : ticks n s = .next t) : s.ostr <+: t.ostr ∧ t.istr <:+ s.istr := by
  refine ticks_keeps (P := fun u => s.ostr <+: u.ostr ∧ u.istr <:+ s.istr) ?_ n
    ⟨List.prefix_rfl, List.suffix_rfl⟩ h
  rintro u v ⟨ho, hi⟩ hm
  obtain ⟨ho', hi'⟩ := (streamMove_tick hm).keeps_order
  exact ⟨ho.trans ho', hi'.trans hi⟩

end

theorem step_reset {s : State} {rest : List HostItem} (h : s.script = .reset :: rest) :
    step s = .next ({ s with script := rest } : State).clearCore :=
  step_action h nofun

/-- Settles O6: the steps before the reset write nothing of the host's but the two streams, which they
only extend and consume, and the reset leaves those as they are. -/
theorem resetAbandonsRunningCommand : Obligations.ResetAbandonsRunningCommand := by
  intro s u n rest _ h
  obtain ⟨ho, hi⟩ := keeps_order_ticks h
  refine ⟨?_, hi, ho⟩
  have hpart := hostPart_ticks h
  simp only [hostPart, Prod.mk.injEq] at hpart
  obtain ⟨hcb, hsrc, hdst, -, hread, hdraws⟩ := hpart
  rw [step_reset rfl, ← hcb, ← hsrc, ← hdst, ← hread, ← hdraws]
  rfl

/-! ### The end of a run -/

/-- Settles O59: a core that is not busy stands in `PHASE` 0, 3 or 4, and `ERR` tells 4 from the
others. -/
theorem endedRunSucceedsOrFails : Obligations.EndedRunSucceedsOrFails := by
  intro s hinv hend
  have hfailed : RunFailed s ↔ s.err ≠ .none :=
    ⟨fun ⟨_, hp⟩ => hinv.err.mpr hp, fun he => ⟨hend, hinv.err.mp he⟩⟩
  refine ⟨?_, fun ⟨⟨_, _, hnone⟩, hf⟩ => hfailed.mp hf hnone, hfailed⟩
  by_cases he : s.err = .none
  · have hne : s.phase ≠ .error := fun hp => hinv.err.mpr hp he
    refine .inl ⟨hend, ?_, he⟩
    rcases s.busy_eq_false_iff.mp hend.2 with hp | hp | hp
    · exact .inl hp
    · exact .inr hp
    · exact absurd hp hne
  · exact .inr (hfailed.mpr he)

/-! ### Termination -/

section
variable {s : State}

/-- Only `CLEAR` runs from `PHASE` 4, and nothing from `PHASE` 1 and 2 (46_control.md R283). -/
theorem accepting_of_runs {i : Instr} (ha : s.acceptance (some i) = .runs i) (hi : i ≠ .clear) :
    Accepting s := by
  have hb : s.busy = false := Bool.eq_false_iff.mpr fun hb => by
    rw [State.acceptance_of_busy hb] at ha
    cases ha
  rcases s.busy_eq_false_iff.mp hb with hp | hp | hp
  · exact .inl hp
  · exact .inr hp
  · exact absurd ((State.acceptance_runs ha).2 hp) hi

theorem freqAt_eq_zero_of_distinct (h : distinct s = 0) (b : Byte) : s.freqAt b = 0 := by
  have hnone := List.filter_eq_nil_iff.mp (List.length_eq_zero_iff.mp h) b (mem_allSymbols b)
  simpa [State.freqAt] using hnone

/-- `BUILD` faults on an empty table and leaves a tree of any other. -/
theorem exists_next_build (ha : Accepting s) : ∃ t, exec .build s = .next t := by
  rcases Nat.eq_zero_or_pos (distinct s) with hk | hk
  · exact ⟨_, buildOnEmptyTableRaises s ha (freqAt_eq_zero_of_distinct hk)⟩
  · obtain ⟨t, he, -⟩ := buildCompletesWithTree s ha hk
    exact ⟨t, he⟩

/-- A command that runs answers a next state: the loops over the streams and the header are total, and
the arena, the order and the walk stay within their capacity. -/
theorem exists_next_of_runs {i : Instr} (ha : s.acceptance (some i) = .runs i)
    (htree : i = .gencode → s.tv = true → TreeShape s) : ∃ t, exec i s = .next t := by
  cases i with
  | clear => exact ⟨_, runCommand_of_runs (fun u => .next u.clearCore) ha⟩
  | analyze => exact ⟨_, runCommand_of_runs (fun u => .next (analyzeBody u)) ha⟩
  | build => exact exists_next_build (accepting_of_runs ha nofun)
  | gencode =>
    have htv : s.tv = true := (State.acceptance_runs ha).1
    obtain ⟨t, he, -⟩ := exec_gencode_of_tree (accepting_of_runs ha nofun) htv (htree rfl htv)
    exact ⟨t, he⟩
  | wrhdr => exact ⟨_, exec_wrhdr_of_runs ha⟩
  | encode => exact ⟨_, runCommand_of_runs (fun u => .next (encodeBody u)) ha⟩
  | rdhdr => exact ⟨_, runCommand_of_runs (fun u => .next (rdhdrBody u)) ha⟩
  | decode => exact ⟨_, exec_decode_of_runs ha⟩

end

/-- Settles O14: a command that does not run leaves the state or raises, one that runs answers. -/
theorem everyCommandTerminates : Obligations.EveryCommandTerminates := by
  intro i s htree
  by_cases ha : s.acceptance (some i) = .runs i
  · exact exists_next_of_runs ha htree
  · rcases exec_not_running s ha with he | ⟨e, he⟩
    · exact ⟨_, he⟩
    · exact ⟨_, he⟩

end Sys2Proof.Machine
end
